-- ==== Sys2Proof/Word.lean ====
section
/-! DEFINITION. The words of SA2-FXC: the number word `NUM` (00_scope.md R8), the 16-bit descriptor
word and the 64-bit message word (30_encoding.md R70), and the index types of the state files
(10_state.md R20, R22). -/

namespace Sys2Proof

/-- One NUM: the bits of an IEEE 754 binary64 value, sign 63, exponent 62:52, fraction 51:0 (R8, R81). -/
abbrev NUM := BitVec 64

/-- One stage descriptor of a ROM (R70, R85). -/
abbrev Word16 := BitVec 16

/-- One word of a control message (R79). -/
abbrev Word64 := BitVec 64

/-- A biquad slot `0..10` (R22). -/
abbrev Slot := Fin 11

/-- A channel `0..1` (R20). -/
abbrev Chan := Fin 2

end Sys2Proof
end

