-- ==== Sys2Proof/Machine/Constants.lean ====
section
/-! DEFINITION. The constants the spec fixes (00_scope.md R5, R10) and the numbers its formulas print, each
the binary64 value nearest its decimal. Tests/Slice0.lean compares them with the correctly rounded
quotient of their decimal. -/

namespace Sys2Proof.Const

/-- `PI`, the NUM nearest π (R10). -/
def pi : NUM := 0x400921FB54442D18#64

/-- `+0.0`. -/
def zero : NUM := 0x0000000000000000#64

/-- 1. -/
def one : NUM := 0x3FF0000000000000#64

/-- 2. -/
def two : NUM := 0x4000000000000000#64

/-- -2. -/
def minusTwo : NUM := 0xC000000000000000#64

/-- 4; `CHUG_SCALE` (R5) and the ring size of R146. -/
def four : NUM := 0x4010000000000000#64

/-- 5, the flat slider position (R176). -/
def five : NUM := 0x4014000000000000#64

/-- `S_SHELF` = 0.707 (R5, R103). -/
def shelfSlope : NUM := 0x3FE69FBE76C8B439#64

/-- 40: `TH_PMIN` (R5, R143), and the divisor of `A = 10^(gain/40)` (R101). -/
def forty : NUM := 0x4044000000000000#64

/-- `SHAPE_C` = 3 (R5, R131). -/
def shapeC : NUM := 0x4008000000000000#64

/-- `TH_PMAX` = 1500 (R5, R143). -/
def thPmax : NUM := 0x4097700000000000#64

/-- `TH_DEV` = 0.15 (R5, R144, R146). -/
def thDev : NUM := 0x3FC3333333333333#64

/-- `ENV_KEEP` = 0.995 (R5, R147, R161). -/
def envKeep : NUM := 0x3FEFD70A3D70A3D7#64

/-- `ENV_IN` = 0.005 (R5, R147, R161). -/
def envIn : NUM := 0x3F747AE147AE147B#64

/-- `TH_GATE` = 0.01 (R5, R148). -/
def thGate : NUM := 0x3F847AE147AE147B#64

/-- `TH_ATTACK` = 0.0003 (R5, R149). -/
def thAttack : NUM := 0x3F33A92A30553261#64

/-- `TH_RELEASE` = 0.01 (R5, R149). -/
def thRelease : NUM := 0x3F847AE147AE147B#64

/-- `TH_MIX` = 2.5 (R5, R150). -/
def thMix : NUM := 0x4004000000000000#64

/-- `CHUG_THRESH` = 1.5 (R5, R162). -/
def chugThresh : NUM := 0x3FF8000000000000#64

/-- `LOWBOOST_F` = 80 Hz (R5, R171). -/
def lowBoostF : NUM := 0x4054000000000000#64

/-- `LOWBOOST_DB` = 8 dB (R5, R171). -/
def lowBoostDb : NUM := 0x4020000000000000#64

/-- `BASS_F` = 200 Hz (R5, R172). -/
def bassF : NUM := 0x4069000000000000#64

/-- `MID_F` = 1000 Hz (R5, R173). -/
def midF : NUM := 0x408F400000000000#64

/-- `TREBLE_F` = 4000 Hz (R5, R174). -/
def trebleF : NUM := 0x40AF400000000000#64

/-- `PRESENCE_F` = 6000 Hz (R5, R175). -/
def presenceF : NUM := 0x40B7700000000000#64

/-- `PEQ_F_MIN` = 20 Hz, the floor of every designer frequency (R5, R184). -/
def peqFMin : NUM := 0x4034000000000000#64

/-- `PEQ_F_MAX` = 20000 Hz (R5, R184). -/
def peqFMax : NUM := 0x40D3880000000000#64

/-- 0.49, the share of SR in `F_CEIL` (R184). -/
def nyquistShare : NUM := 0x3FDF5C28F5C28F5C#64

/-- `PEQ_G_MIN` = -12 dB (R5, R178). -/
def peqGMin : NUM := 0xC028000000000000#64

/-- `PEQ_G_MAX` = +12 dB (R5, R178). -/
def peqGMax : NUM := 0x4028000000000000#64

/-- `PEQ_Q_MIN` = 0.1 (R5, R178). -/
def peqQMin : NUM := 0x3FB999999999999A#64

/-- `PEQ_Q_MAX` = 10 (R5, R178). -/
def peqQMax : NUM := 0x4024000000000000#64

/-- `LOFI_LP_F` = 2000 Hz (R5, R180). -/
def lofiLpF : NUM := 0x409F400000000000#64

/-- `LOFI_HP_F` = 300 Hz (R5, R181). -/
def lofiHpF : NUM := 0x4072C00000000000#64

/-- `LOFI_Q` = 0.7 (R5, R180, R181). -/
def lofiQ : NUM := 0x3FE6666666666666#64

/-- `LOFI_TRIM` = 0.8 (R5, R182). -/
def lofiTrim : NUM := 0x3FE999999999999A#64

/-- Default of `peq0Freq`, 100 Hz (R27). -/
def peq0FreqDefault : NUM := 0x4059000000000000#64

/-- Default of `peq1Freq`, 500 Hz (R27). -/
def peq1FreqDefault : NUM := 0x407F400000000000#64

/-- Default of `peq2Freq`, 2000 Hz (R27). -/
def peq2FreqDefault : NUM := 0x409F400000000000#64

/-- Default of `peq3Freq`, 8000 Hz (R27). -/
def peq3FreqDefault : NUM := 0x40BF400000000000#64

/-- The default the spec offers for `SR`, 48000 Hz (R6). -/
def srDefault : NUM := 0x40E7700000000000#64

/-- The default the spec offers for `BLOCK_LEN`, 128 frames (R6). -/
def blockLenDefault : Nat := 128

end Sys2Proof.Const
end

