-- ==== Sys2Proof/Config.lean ====
section
/-! DEFINITION. What an implementation or a connection fixes: the configuration `CFG` (00_scope.md R6)
and the uninterpreted constants that stand for what the spec leaves open. Every `opaque` constant here
has no body: nothing can be proved of its value beyond its type. -/

namespace Sys2Proof

/-- The arithmetic operations that can answer a NaN (R8, R11). -/
inductive FpOp where
  | add | sub | mul | div | sqrt | maximum | minimum
deriving DecidableEq, Repr

/-- The configuration `CFG` of a connection (R6), fixed at CONNECT (R201). It is plain data: its four
function-valued parameters `Sin`, `Cos`, `Pow10`, `ShapeAmount` are named by the number `fns`, which
selects them from the uninterpreted families below, and `shapeMeetsR6` says whether the `ShapeAmount`
handed over meets R6's constraint on it (log 3). -/
structure Cfg where
  sr : NUM
  blockLen : Nat
  kShape : NUM
  rangeBass : NUM
  rangeMid : NUM
  rangeTreble : NUM
  rangePresence : NUM
  qMid : NUM
  fns : Nat
  shapeMeetsR6 : Bool
deriving DecidableEq, Repr, Inhabited

/-- `CFG.Sin` (R6, R10): depends on the argument alone (log 3). -/
opaque Config.sin (fns : Nat) (x : NUM) : NUM

/-- `CFG.Cos` (R6, R10; log 3). -/
opaque Config.cos (fns : Nat) (x : NUM) : NUM

/-- `CFG.Pow10` (R6, R10; log 3). -/
opaque Config.pow10 (fns : Nat) (x : NUM) : NUM

/-- Any function at all; of a configuration that meets R6, `shapeAmount` (Machine/Configuration.lean) keeps
of it what R6 admits (log 3). -/
opaque Config.shapeAmountRaw (fns : Nat) (drive : NUM) (punish plus10db : Bool) : NUM

/-- Sign and low payload of the quiet NaN an operation answers: R8 says NaN and not which (log 2).
It depends on the operation and its operands, so that equal runs are bit-identical (R14). -/
opaque Config.nanBits (op : FpOp) (a b : NUM) : BitVec 52

/-- The accumulator after the `n`-th free value is drawn by a CONNECT: "unspecified" (R36, U11; log 5). -/
opaque Config.accAtConnect (n : Nat) : NUM

/-- The reset configuration's parameters for which R6 offers no default; any value
(Machine/Configuration.lean keeps of each what R6 admits; log 4). -/
opaque Config.resetKShape : NUM
opaque Config.resetRangeBass : NUM
opaque Config.resetRangeMid : NUM
opaque Config.resetRangeTreble : NUM
opaque Config.resetRangePresence : NUM
opaque Config.resetQMid : NUM

end Sys2Proof
end

