-- ==== Sys2Proof/Machine/Float.lean ====
section
/-! DEFINITION. The number system of 00_scope.md R8 to R12: IEEE 754 binary64, round to nearest, ties to
even, gradual underflow, default infinities and NaN, no flags.

Every finite binary64 value is an integer multiple of 2^-1074. Each operation computes its exact result
over these integers and rounds it once with `Fp.round`; nothing else rounds. Which quiet NaN an
operation answers is free (`Config.nanBits`, log 2). -/

namespace Sys2Proof

/-- Bit 63. -/
def Fp.sign (x : NUM) : Bool := x.getLsbD 63

/-- The biased exponent, bits 62:52. -/
def Fp.expo (x : NUM) : Nat := (x.extractLsb' 52 11).toNat

/-- The fraction, bits 51:0. -/
def Fp.frac (x : NUM) : Nat := (x.extractLsb' 0 52).toNat

def Fp.isNaN (x : NUM) : Bool := Fp.expo x == 2047 && Fp.frac x != 0

def Fp.isInf (x : NUM) : Bool := Fp.expo x == 2047 && Fp.frac x == 0

/-- `Finite(v)` of R11: neither NaN nor an infinity. -/
def Fp.finite (x : NUM) : Bool := Fp.expo x != 2047

/-- `x` is `+0` or `-0`. -/
def Fp.isZero (x : NUM) : Bool := Fp.expo x == 0 && Fp.frac x == 0

/-- The significand of a finite value, with its leading bit. -/
def Fp.significand (x : NUM) : Nat :=
  if Fp.expo x = 0 then Fp.frac x else 2 ^ 52 + Fp.frac x

/-- The exponent of the significand's last bit, counted from 2^-1074. -/
def Fp.scale (x : NUM) : Nat := Fp.expo x - 1

/-- The magnitude of a finite value, in units of 2^-1074. -/
def Fp.units (x : NUM) : Nat := Fp.significand x * 2 ^ Fp.scale x

/-- The exact value of a finite NUM, in units of 2^-1074. -/
def Fp.value (x : NUM) : Int := if Fp.sign x then - (Fp.units x : Int) else (Fp.units x : Int)

/-- A NUM from its sign and the number in bits 62:0. -/
def Fp.pack (neg : Bool) (magnitude : Nat) : NUM :=
  BitVec.ofNat 64 ((if neg then 2 ^ 63 else 0) + magnitude)

def Fp.zero (neg : Bool) : NUM := Fp.pack neg 0

def Fp.inf (neg : Bool) : NUM := Fp.pack neg (2047 * 2 ^ 52)

/-- The quiet NaN `op` answers on `a`, `b`: sign and low payload free, bits 62:51 all ones. -/
def Fp.nan (op : FpOp) (a b : NUM) : NUM :=
  let p := Config.nanBits op a b
  p.extractLsb' 51 1 ++ (0xFFF#12 ++ p.extractLsb' 0 51)

/-- How many low bits of `n` the format cannot keep, when `n` counts units of 2^-(1074+k): all of the
first `k`, and what a 53-bit significand has no room for. -/
def Fp.dropped (n k : Nat) : Nat := max (n.log2 - 52) k

/-- `n` units of 2^-(1074+k), signed, rounded to nearest, ties to even; overflow gives an infinity.
The kept integer plus `(dropped - k) * 2^52` is the number in bits 62:0 (a carry out of the
significand moves into the exponent by itself). -/
def Fp.round (neg : Bool) (n k : Nat) : NUM :=
  let d := Fp.dropped n k
  let kept := n / 2 ^ d
  let rest := n % 2 ^ d
  let up := 2 ^ d < 2 * rest ∨ (2 ^ d = 2 * rest ∧ kept % 2 = 1)
  Fp.pack neg (min ((d - k) * 2 ^ 52 + (if up then kept + 1 else kept)) (2047 * 2 ^ 52))

/-- The opposite: the sign bit flipped, NaN included (log 21). -/
def Fp.neg (x : NUM) : NUM := x ^^^ (1#64 <<< 63)

/-- `Abs(v)` clears the sign bit (R10). -/
def Fp.abs (x : NUM) : NUM := x &&& ~~~(1#64 <<< 63)

/-- The sum of two operands that are not NaN; opposite infinities answer the NaN `invalid`. An exact zero
sum is `-0` only if both operands are negative. -/
def Fp.addCore (invalid a b : NUM) : NUM :=
  if Fp.isInf a then (if Fp.isInf b && Fp.sign a != Fp.sign b then invalid else a)
  else if Fp.isInf b then b
  else
    let v := Fp.value a + Fp.value b
    if v = 0 then Fp.zero (Fp.sign a && Fp.sign b) else Fp.round (decide (v < 0)) v.natAbs 0

/-- `a + b` (R8). -/
def Fp.add (a b : NUM) : NUM :=
  if Fp.isNaN a || Fp.isNaN b then Fp.nan .add a b else Fp.addCore (Fp.nan .add a b) a b

/-- `a - b` (R8). -/
def Fp.sub (a b : NUM) : NUM :=
  if Fp.isNaN a || Fp.isNaN b then Fp.nan .sub a b
  else Fp.addCore (Fp.nan .sub a b) a (Fp.neg b)

/-- `a * b` (R8). -/
def Fp.mul (a b : NUM) : NUM :=
  if Fp.isNaN a || Fp.isNaN b then Fp.nan .mul a b
  else
    let neg := Fp.sign a != Fp.sign b
    if Fp.isInf a then (if Fp.isZero b then Fp.nan .mul a b else Fp.inf neg)
    else if Fp.isInf b then (if Fp.isZero a then Fp.nan .mul a b else Fp.inf neg)
    else Fp.round neg (Fp.units a * Fp.units b) 1074

/-- `a / b` (R8). The integer quotient carries two bits below 2^-1074 and a last bit that says whether
the division left a remainder, which is all that rounding can depend on. -/
def Fp.div (a b : NUM) : NUM :=
  if Fp.isNaN a || Fp.isNaN b then Fp.nan .div a b
  else
    let neg := Fp.sign a != Fp.sign b
    if Fp.isInf a then (if Fp.isInf b then Fp.nan .div a b else Fp.inf neg)
    else if Fp.isInf b then Fp.zero neg
    else if Fp.isZero b then (if Fp.isZero a then Fp.nan .div a b else Fp.inf neg)
    else
      let scaled := Fp.units a * 2 ^ 1076
      let sticky := if scaled % Fp.units b = 0 then 0 else 1
      Fp.round neg (2 * (scaled / Fp.units b) + sticky) 3

/-- The largest `r` with `r * r ≤ n` among those that add to `acc` only bits below `bits`. -/
def Fp.isqrt : (bits n acc : Nat) → Nat
  | 0, _, acc => acc
  | bits + 1, n, acc =>
    if (acc + 2 ^ bits) * (acc + 2 ^ bits) ≤ n then Fp.isqrt bits n (acc + 2 ^ bits)
    else Fp.isqrt bits n acc

/-- `Sqrt(x)` (R8, R10): the correctly rounded square root; `Sqrt(-0) = -0`, a negative operand is
invalid. The root of `significand * 2^b` has at least 55 bits, and a last bit says whether it is
inexact. -/
def Fp.sqrt (x : NUM) : NUM :=
  if Fp.isNaN x then Fp.nan .sqrt x x
  else if Fp.isZero x then x
  else if Fp.sign x then Fp.nan .sqrt x x
  else if Fp.isInf x then x
  else
    let j := Fp.scale x + 1078
    let b := 110 + j % 2
    let n := Fp.significand x * 2 ^ b
    let r := Fp.isqrt 83 n 0
    let sticky := if r * r = n then 0 else 1
    Fp.round false ((2 * r + sticky) * 2 ^ ((j - b) / 2)) 3

/-- The place of a value that is not NaN in the order of R11: both zeros at 0, infinities outermost. -/
def Fp.ord (x : NUM) : Int :=
  let m : Int := ((x.extractLsb' 0 63).toNat : Int)
  if Fp.sign x then -m else m

/-- The quiet comparisons of R11: false if an operand is NaN, and `-0 = +0`. -/
def Fp.lt (a b : NUM) : Bool := !Fp.isNaN a && !Fp.isNaN b && decide (Fp.ord a < Fp.ord b)

def Fp.le (a b : NUM) : Bool := !Fp.isNaN a && !Fp.isNaN b && decide (Fp.ord a ≤ Fp.ord b)

def Fp.eq (a b : NUM) : Bool := !Fp.isNaN a && !Fp.isNaN b && decide (Fp.ord a = Fp.ord b)

/-- `Max` of R11: NaN if either operand is, else the larger, `+0` above `-0`. -/
def Fp.max (a b : NUM) : NUM :=
  if Fp.isNaN a || Fp.isNaN b then Fp.nan .maximum a b
  else if Fp.ord a < Fp.ord b then b
  else if Fp.ord b < Fp.ord a then a
  else if Fp.sign a then b else a

/-- `Min` of R11: NaN if either operand is, else the smaller, `-0` below `+0`. -/
def Fp.min (a b : NUM) : NUM :=
  if Fp.isNaN a || Fp.isNaN b then Fp.nan .minimum a b
  else if Fp.ord a < Fp.ord b then a
  else if Fp.ord b < Fp.ord a then b
  else if Fp.sign a then a else b

/-- `Clamp(v, lo, hi) = Min(Max(v, lo), hi)` (R11). -/
def Fp.clamp (v lo hi : NUM) : NUM := Fp.min (Fp.max v lo) hi

/-- `Num(k)`: a natural as a NUM, exact below 2^53 (R12, R13; log 20). -/
def Fp.ofNat (k : Nat) : NUM := Fp.round false (k * 2 ^ 1074) 0

end Sys2Proof
end

