-- ==== Sys2Proof/Machine/Configuration.lean ====
section
/-! DEFINITION. The constraints of 00_scope.md R6 on a configuration, the functions it names, and the
configuration of the reset state. -/

namespace Sys2Proof.Machine

/-- `v` is finite and `> 0`. -/
def positive (v : NUM) : Bool := Fp.finite v && Fp.lt Const.zero v

/-- `v` is finite and `>= 0`. -/
def nonnegative (v : NUM) : Bool := Fp.finite v && Fp.le Const.zero v

/-- The constraints of R6. A `ShapeAmount` that breaks its own ("returns a negative or non-finite value",
93_implementation_defined.md U7) makes the configuration as bad as a number that breaks its own. -/
def cfgValid (c : Cfg) : Bool :=
  positive c.sr && decide (1 ≤ c.blockLen) && positive c.kShape &&
  nonnegative c.rangeBass && nonnegative c.rangeMid && nonnegative c.rangeTreble &&
  nonnegative c.rangePresence && positive c.qMid && c.shapeMeetsR6

/-- What R6 admits as the result of `ShapeAmount` on one argument: finite and `>= 0`, and a zero at
`(0, false, false)`. DESIGN CHOICE (log 29): R6's `0` is `+0.0`; of `drive = -0` no more is known than that
the result is finite and `>= 0`. -/
def shapeAmountAdmits (drive : NUM) (punish plus10db : Bool) (v : NUM) : Bool :=
  nonnegative v &&
  (!(decide (drive = Const.zero) && !punish && !plus10db) || Fp.isZero v)

/-- `CFG.ShapeAmount` (R6, R28). With `shapeMeetsR6` it is any function that meets R6: each such function
is the image of itself as `shapeAmountRaw`, and nothing else is known of it. Without, it is any function
at all, and `CONNECT` refuses the configuration (log 3; the reading of `drive = -0` is log 29). -/
def shapeAmount (c : Cfg) (drive : NUM) (punish plus10db : Bool) : NUM :=
  let raw := Config.shapeAmountRaw c.fns drive punish plus10db
  if c.shapeMeetsR6 && !shapeAmountAdmits drive punish plus10db raw then Const.zero else raw

/-- `v` if R6 admits it as a positive parameter. -/
def asPositive (v : NUM) : NUM := if positive v then v else Const.one

/-- `v` if R6 admits it as a non-negative parameter. -/
def asNonnegative (v : NUM) : NUM := if nonnegative v then v else Const.zero

/-- The configuration of the reset state: the defaults R6 offers for SR and BLOCK_LEN, and values
admitted by R6 and otherwise unknown for the parameters it offers none for (log 4). -/
def resetCfg : Cfg :=
  { sr := Const.srDefault
    blockLen := Const.blockLenDefault
    kShape := asPositive Config.resetKShape
    rangeBass := asNonnegative Config.resetRangeBass
    rangeMid := asNonnegative Config.resetRangeMid
    rangeTreble := asNonnegative Config.resetRangeTreble
    rangePresence := asNonnegative Config.resetRangePresence
    qMid := asPositive Config.resetQMid
    fns := 0
    shapeMeetsR6 := true }

end Sys2Proof.Machine
end

