-- ==== Sys2Proof/Syntax.lean ====
section
/-! DEFINITION. The instructions of SA2-FXC: one constructor of `Instr` for each row of
spec/opcode_table.json, what the host hands over (30_encoding.md R70), and the pseudo-instructions
(R87). -/

namespace Sys2Proof

/-- The enable predicate of a stage descriptor (30_encoding.md R74). -/
inductive Pred where
  | always | ncl | thk | chg | lofi
deriving DecidableEq, Repr

/-- The five filter types the designer knows (30_encoding.md R76). -/
inductive FilterType where
  | lowshelf | highshelf | peaking | lowpass | highpass
deriving DecidableEq, Repr

/-- A decoded `UPDSET` message: each of the 32 fields of 10_state.md R27 absent or a raw value, a NUM bit
pattern or a Bool (30_encoding.md R80, R81). -/
structure SettingsMsg where
  inputGain : Option NUM
  inputTrim : Option NUM
  drive : Option NUM
  punish : Option Bool
  plus10db : Option Bool
  cleanse : Option Bool
  thickenEnabled : Option Bool
  thickenAmount : Option NUM
  chugEnabled : Option Bool
  chugAmount : Option NUM
  lowBoost : Option Bool
  bass : Option NUM
  mid : Option NUM
  treble : Option NUM
  presence : Option NUM
  peqEnabled : Option Bool
  peq0Freq : Option NUM
  peq0Gain : Option NUM
  peq0Q : Option NUM
  peq1Freq : Option NUM
  peq1Gain : Option NUM
  peq1Q : Option NUM
  peq2Freq : Option NUM
  peq2Gain : Option NUM
  peq2Q : Option NUM
  peq3Freq : Option NUM
  peq3Gain : Option NUM
  peq3Q : Option NUM
  lofiEnabled : Option Bool
  outputGain : Option NUM
  masterVolume : Option NUM
  outputTrim : Option NUM
deriving DecidableEq, Repr, Inhabited

/-- The message `UPDSET` with every field absent (R87). -/
def SettingsMsg.empty : SettingsMsg :=
  ⟨none, none, none, none, none, none, none, none, none, none, none, none, none, none, none, none,
   none, none, none, none, none, none, none, none, none, none, none, none, none, none, none, none⟩

/-- One instruction, a constructor for each row of spec/opcode_table.json. `process ins out0 out1` names
its buffers by address: channel `c` of the input at `ins[c]`, NIN being the length of `ins`, and the two
output channels at `out0` and `out1` (20_memory.md R51, R52, R60; log 10). -/
inductive Instr where
  | endPass
  | ldin (p : Pred)
  | preg (p : Pred)
  | shape (p : Pred)
  | thick (p : Pred)
  | chug (p : Pred)
  | bq (slot : Slot) (p : Pred)
  | trim (p : Pred)
  | outg (p : Pred)
  | stout (p : Pred)
  | dsgnLowshelf (slot : Slot)
  | dsgnHighshelf (slot : Slot)
  | dsgnPeaking (slot : Slot)
  | dsgnLowpass (slot : Slot)
  | dsgnHighpass (slot : Slot)
  | dsgnOther (slot : Slot) (type : BitVec 8)
  | updset (m : SettingsMsg)
  | setmute (b : Bool)
  | connect (cfg : Cfg)
  | process (ins : List Nat) (out0 out1 : Nat)
  | disconnect
deriving DecidableEq, Repr

/-- A host signal: raised by the host audio clock with its arguments, not encoded (30_encoding.md R88). -/
inductive Signal where
  | connect (cfg : Cfg)
  | process (ins : List Nat) (out0 out1 : Nat)
  | disconnect
deriving DecidableEq, Repr

/-- What an instruction is carried in (30_encoding.md R70): one descriptor word, the words of one control
message, or a signal. -/
inductive Code where
  | descriptor (w : Word16)
  | message (words : List Word64)
  | signal (s : Signal)
deriving DecidableEq, Repr

/-- One action of the host (00_scope.md R4): a control message or a signal, or the writing of samples
into a buffer between blocks (20_memory.md R50, R61). -/
inductive HostAction where
  | message (words : List Word64)
  | signal (s : Signal)
  | store (base : Nat) (samples : List NUM)
deriving DecidableEq, Repr

/-- The pseudo-instructions of 30_encoding.md R87. -/
def Instr.tonestack : List Instr :=
  [.bq 0 .always, .bq 1 .always, .bq 2 .always, .bq 3 .always, .bq 4 .always]

def Instr.peq : List Instr := [.bq 5 .always, .bq 6 .always, .bq 7 .always, .bq 8 .always]

def Instr.lofi : List Instr := [.bq 9 .lofi, .bq 10 .lofi, .trim .lofi]

/-- `CHAIN`: the per-sample chain, the assembler column of R77. -/
def Instr.chain : List Instr :=
  [.ldin .always, .preg .always, .shape .ncl, .thick .thk, .chug .chg] ++ Instr.tonestack ++ Instr.peq ++
  Instr.lofi ++ [.outg .always, .stout .always, .endPass]

/-- `DESIGN`: the coefficient recompute, the assembler column of R78. -/
def Instr.design : List Instr :=
  [.dsgnLowshelf 0, .dsgnLowshelf 1, .dsgnPeaking 2, .dsgnHighshelf 3, .dsgnHighshelf 4, .dsgnPeaking 5,
   .dsgnPeaking 6, .dsgnPeaking 7, .dsgnPeaking 8, .dsgnLowpass 9, .dsgnHighpass 10, .endPass]

/-- `MUTE` and `UNMUTE`. -/
def Instr.mute : Instr := .setmute true

def Instr.unmute : Instr := .setmute false

end Sys2Proof
end

