-- ==== Sys2Proof/WellFormed.lean ====
section
/-! DEFINITION. Which instruction terms stand for an instruction: what the types of Syntax.lean do not
already say. -/

namespace Sys2Proof

/-- `DSGN` with a named type has a constructor of its own, so `dsgnOther` carries a code in `5..255`
(30_encoding.md R76); a `CONNECT` carries a configuration that meets 00_scope.md R6
(46_block_processor.md R201). Slots and predicates are in range by their types (R74, R75). -/
def Instr.wellFormed : Instr → Bool
  | .endPass => true
  | .ldin _ => true
  | .preg _ => true
  | .shape _ => true
  | .thick _ => true
  | .chug _ => true
  | .bq _ _ => true
  | .trim _ => true
  | .outg _ => true
  | .stout _ => true
  | .dsgnLowshelf _ => true
  | .dsgnHighshelf _ => true
  | .dsgnPeaking _ => true
  | .dsgnLowpass _ => true
  | .dsgnHighpass _ => true
  | .dsgnOther _ type => decide (5 ≤ type.toNat)
  | .updset _ => true
  | .setmute _ => true
  | .connect cfg => Machine.cfgValid cfg
  | .process _ _ _ => true
  | .disconnect => true

end Sys2Proof
end

