-- ==== Sys2Proof/Decode.lean ====
section
/-! DEFINITION. The decoder and, after it, the encoder, both from 30_encoding.md R71 to R85. The decoder is
total: it answers an instruction or the name of what is wrong. -/

namespace Sys2Proof

/-- Why a code is no instruction: the reserved descriptors of R83 and the malformed messages of R84. -/
inductive DecodeError where
  /-- `op` in 0xA, 0xB, 0xC, 0xE, 0xF. -/
  | reservedOp
  /-- `op = 0` with any other bit set. -/
  | endNotZero
  /-- `pred` in 5..7. -/
  | reservedPred
  /-- `rsv` non-zero. -/
  | reservedBits
  /-- `idx` non-zero on an operation without a slot. -/
  | idxNotZero
  /-- `idx` in 11..15 on `BQ` or `DSGN`. -/
  | slotOutOfRange
  /-- `msgop` neither 0x01 nor 0x02. -/
  | badMsgop
  /-- A must-be-zero field of a message header is not zero. -/
  | headerNotZero
  /-- A message with fewer or more words than its `msgop` fixes (R84, R85, R254; log 14). -/
  | wrongLength
deriving DecidableEq, Repr

/-- The predicate field of format S (R74). -/
def decodePred (p : BitVec 3) : Except DecodeError Pred :=
  match p.toNat with
  | 0 => .ok .always
  | 1 => .ok .ncl
  | 2 => .ok .thk
  | 3 => .ok .chg
  | 4 => .ok .lofi
  | _ => .error .reservedPred

/-- The slot field of `BQ` and `DSGN` (R75). -/
def decodeSlot (idx : BitVec 4) : Except DecodeError Slot :=
  if h : idx.toNat < 11 then .ok ⟨idx.toNat, h⟩ else .error .slotOutOfRange

/-- The part of format S that carries a predicate: `rsv` must be 0 (R71). -/
def decodeStagePred (w : Word16) : Except DecodeError Pred :=
  if w.extractLsb' 0 5 = 0#5 then decodePred (w.extractLsb' 5 3) else .error .reservedBits

/-- A format S operation without a slot: `idx` must be 0 (R71, R75). -/
def decodeStage (make : Pred → Instr) (w : Word16) : Except DecodeError Instr :=
  if w.extractLsb' 8 4 = 0#4 then (decodeStagePred w).map make else .error .idxNotZero

/-- Format D: the type code selects the row (R72, R76). -/
def designInstr (slot : Slot) (type : BitVec 8) : Instr :=
  match type.toNat with
  | 0 => .dsgnLowshelf slot
  | 1 => .dsgnHighshelf slot
  | 2 => .dsgnPeaking slot
  | 3 => .dsgnLowpass slot
  | 4 => .dsgnHighpass slot
  | _ => .dsgnOther slot type

/-- One descriptor word (R71 to R76, R83). -/
def decodeDescriptor (w : Word16) : Except DecodeError Instr :=
  match (w.extractLsb' 12 4).toNat with
  | 0 => if w = 0#16 then .ok .endPass else .error .endNotZero
  | 1 => decodeStage .ldin w
  | 2 => decodeStage .preg w
  | 3 => decodeStage .shape w
  | 4 => decodeStage .thick w
  | 5 => decodeStage .chug w
  | 6 =>
    match decodeSlot (w.extractLsb' 8 4) with
    | .ok slot => (decodeStagePred w).map (.bq slot)
    | .error e => .error e
  | 7 => decodeStage .trim w
  | 8 => decodeStage .outg w
  | 9 => decodeStage .stout w
  | 13 => (decodeSlot (w.extractLsb' 8 4)).map (fun slot => designInstr slot (w.extractLsb' 0 8))
  | _ => .error .reservedOp

/-- A Bool field's payload word: bit 0, the other bits ignored (R81). -/
def boolOfWord (w : Word64) : Bool := w.getLsbD 0

/-- The decoded message whose field `i` is the raw word `raw i`, if present (R80, R81); `i` is the index
of 10_state.md R27. -/
def settingsOfRaw (raw : Nat → Option Word64) : SettingsMsg :=
  { inputGain := raw 0
    inputTrim := raw 1
    drive := raw 2
    punish := (raw 3).map boolOfWord
    plus10db := (raw 4).map boolOfWord
    cleanse := (raw 5).map boolOfWord
    thickenEnabled := (raw 6).map boolOfWord
    thickenAmount := raw 7
    chugEnabled := (raw 8).map boolOfWord
    chugAmount := raw 9
    lowBoost := (raw 10).map boolOfWord
    bass := raw 11
    mid := raw 12
    treble := raw 13
    presence := raw 14
    peqEnabled := (raw 15).map boolOfWord
    peq0Freq := raw 16
    peq0Gain := raw 17
    peq0Q := raw 18
    peq1Freq := raw 19
    peq1Gain := raw 20
    peq1Q := raw 21
    peq2Freq := raw 22
    peq2Gain := raw 23
    peq2Q := raw 24
    peq3Freq := raw 25
    peq3Gain := raw 26
    peq3Q := raw 27
    lofiEnabled := (raw 28).map boolOfWord
    outputGain := raw 29
    masterVolume := raw 30
    outputTrim := raw 31 }

/-- Field `i` is present iff bit `i` of the mask is set; its value is payload word `i` (R80). -/
def rawField (present : BitVec 32) (payload : List Word64) (i : Nat) : Option Word64 :=
  if present.getLsbD i then payload[i]? else none

/-- One control message (R79 to R85). A message that is not well formed is named, and is then discarded
whole by the receiver (R84). -/
def decodeMessage (words : List Word64) : Except DecodeError Instr :=
  match words with
  | [] => .error .wrongLength
  | header :: payload =>
    match (header.extractLsb' 56 8).toNat with
    | 1 =>
      if header.extractLsb' 32 24 = 0#24 then
        if payload.length = 32 then
          .ok (.updset (settingsOfRaw (rawField (header.extractLsb' 0 32) payload)))
        else .error .wrongLength
      else .error .headerNotZero
    | 2 =>
      if header.extractLsb' 1 55 = 0#55 then
        if payload.length = 0 then .ok (.setmute (header.getLsbD 0)) else .error .wrongLength
      else .error .headerNotZero
    | _ => .error .badMsgop

/-- A signal is its instruction (R88). -/
def decodeSignal : Signal → Instr
  | .connect cfg => .connect cfg
  | .process ins out0 out1 => .process ins out0 out1
  | .disconnect => .disconnect

/-- The instruction a code stands for. -/
def decode : Code → Except DecodeError Instr
  | .descriptor w => decodeDescriptor w
  | .message words => decodeMessage words
  | .signal s => .ok (decodeSignal s)

/-- The words of a message that begins with the low word of `w`: 33 for `UPDSET`, else 1 (R85). -/
def tableMessage (w : Nat) : List Word64 :=
  let count := if (w >>> 56) % 256 = 1 then 33 else 1
  (List.range count).map (fun i => BitVec.ofNat 64 (w >>> (64 * i)))

/-- The instruction the decoder reads from an opcode-table row's bits: up to 16 bits are one descriptor
word, more are message words of 64 bits, the first lowest. A row without bits (format H) reads as
nothing. -/
def decodeTableWord (nbits w : Nat) : Option Instr :=
  if nbits = 0 then none
  else if nbits ≤ 16 then (decodeDescriptor (BitVec.ofNat 16 w)).toOption
  else (decodeMessage (tableMessage w)).toOption

/-- The predicate's code (R74). -/
def encodePred : Pred → BitVec 3
  | .always => 0#3
  | .ncl => 1#3
  | .thk => 2#3
  | .chg => 3#3
  | .lofi => 4#3

/-- Format S: op, idx, pred, rsv (R71). -/
def formatS (op idx : BitVec 4) (p : Pred) : Word16 := op ++ (idx ++ (encodePred p ++ 0#5))

/-- Format D: op 0xD, idx, type (R72). -/
def formatD (slot : Slot) (type : BitVec 8) : Word16 := 0xD#4 ++ (BitVec.ofNat 4 slot.val ++ type)

/-- The payload word of a Bool field (R81). -/
def wordOfBool (b : Bool) : Word64 := if b then 1#64 else 0#64

/-- The 32 raw fields of a message, in index order. -/
def rawOfSettings (m : SettingsMsg) : List (Option Word64) :=
  [m.inputGain, m.inputTrim, m.drive, m.punish.map wordOfBool, m.plus10db.map wordOfBool,
   m.cleanse.map wordOfBool, m.thickenEnabled.map wordOfBool, m.thickenAmount,
   m.chugEnabled.map wordOfBool, m.chugAmount, m.lowBoost.map wordOfBool, m.bass, m.mid, m.treble,
   m.presence, m.peqEnabled.map wordOfBool, m.peq0Freq, m.peq0Gain, m.peq0Q, m.peq1Freq, m.peq1Gain,
   m.peq1Q, m.peq2Freq, m.peq2Gain, m.peq2Q, m.peq3Freq, m.peq3Gain, m.peq3Q,
   m.lofiEnabled.map wordOfBool, m.outputGain, m.masterVolume, m.outputTrim]

/-- The present mask: bit `i` set iff field `i` is present (R80). -/
def presentMask : List (Option Word64) → Nat
  | [] => 0
  | field :: rest => (if field.isSome then 1 else 0) + 2 * presentMask rest

/-- The words of a control message; the payload word of an absent field is 0 (R80, R82). -/
def encodeSettings (m : SettingsMsg) : List Word64 :=
  let fields := rawOfSettings m
  (0x01#8 ++ (0#24 ++ BitVec.ofNat 32 (presentMask fields))) :: fields.map (·.getD 0#64)

def encodeMute (b : Bool) : Word64 := 0x02#8 ++ (0#55 ++ BitVec.ofBool b)

/-- The code of an instruction (R71 to R82, R88). -/
def encode : Instr → Code
  | .endPass => .descriptor 0x0000#16
  | .ldin p => .descriptor (formatS 0x1#4 0#4 p)
  | .preg p => .descriptor (formatS 0x2#4 0#4 p)
  | .shape p => .descriptor (formatS 0x3#4 0#4 p)
  | .thick p => .descriptor (formatS 0x4#4 0#4 p)
  | .chug p => .descriptor (formatS 0x5#4 0#4 p)
  | .bq slot p => .descriptor (formatS 0x6#4 (BitVec.ofNat 4 slot.val) p)
  | .trim p => .descriptor (formatS 0x7#4 0#4 p)
  | .outg p => .descriptor (formatS 0x8#4 0#4 p)
  | .stout p => .descriptor (formatS 0x9#4 0#4 p)
  | .dsgnLowshelf slot => .descriptor (formatD slot 0#8)
  | .dsgnHighshelf slot => .descriptor (formatD slot 1#8)
  | .dsgnPeaking slot => .descriptor (formatD slot 2#8)
  | .dsgnLowpass slot => .descriptor (formatD slot 3#8)
  | .dsgnHighpass slot => .descriptor (formatD slot 4#8)
  | .dsgnOther slot type => .descriptor (formatD slot type)
  | .updset m => .message (encodeSettings m)
  | .setmute b => .message [encodeMute b]
  | .connect cfg => .signal (.connect cfg)
  | .process ins out0 out1 => .signal (.process ins out0 out1)
  | .disconnect => .signal .disconnect

end Sys2Proof
end

