-- ==== Sys2Proof/Machine/Memory.lean ====
section
/-! DEFINITION. The memory in which the host's buffers lie (20_memory.md R50 to R53): bytes at natural
addresses, in one canonical form: addresses strictly rising, and no entry equal to what an unlisted
address reads as. -/

namespace Sys2Proof.Machine

abbrev Memory := List Host.Cell

/-- What an address not listed reads as (DESIGN CHOICE, log 11). -/
def unlistedByte : BitVec 8 := 0#8

/-- Every address of `m` lies above `a`, they rise strictly, and no byte is the unlisted one. -/
def memWfAbove : Option Nat → Memory → Bool
  | _, [] => true
  | low, (a, b) :: rest =>
    (match low with | none => true | some l => decide (l < a)) && b != unlistedByte &&
    memWfAbove (some a) rest

/-- The canonical form. -/
def Memory.wf (m : Memory) : Bool := memWfAbove none m

/-- One byte. -/
def readByte : Memory → Nat → BitVec 8
  | [], _ => unlistedByte
  | (a, b) :: rest, addr => if addr = a then b else readByte rest addr

/-- Put a byte in front of cells above it, in canonical form. -/
def consByte (addr : Nat) (byte : BitVec 8) (m : Memory) : Memory :=
  if byte = unlistedByte then m else (addr, byte) :: m

/-- Store one byte, keeping the canonical form. -/
def writeByte : Memory → Nat → BitVec 8 → Memory
  | [], addr, byte => consByte addr byte []
  | (a, b) :: rest, addr, byte =>
    if addr < a then consByte addr byte ((a, b) :: rest)
    else if addr = a then consByte addr byte rest
    else (a, b) :: writeByte rest addr byte

/-- Byte `i` of a NUM, byte 0 the least significant (R53). -/
def byteOf (v : NUM) (i : Nat) : BitVec 8 := v.extractLsb' (8 * i) 8

/-- One NUM from eight bytes, the least significant at the lowest address (R51, R53, R59). -/
def readNum (m : Memory) (addr : Nat) : NUM :=
  readByte m (addr + 7) ++ (readByte m (addr + 6) ++ (readByte m (addr + 5) ++
    (readByte m (addr + 4) ++ (readByte m (addr + 3) ++ (readByte m (addr + 2) ++
      (readByte m (addr + 1) ++ readByte m addr))))))

/-- Store the low `count` bytes of a NUM. -/
def writeBytes (m : Memory) (addr : Nat) (v : NUM) : Nat → Memory
  | 0 => m
  | count + 1 => writeByte (writeBytes m addr v count) (addr + count) (byteOf v count)

/-- Store one NUM, unchanged (R52, R53, R59). -/
def writeNum (m : Memory) (addr : Nat) (v : NUM) : Memory := writeBytes m addr v 8

/-- Store samples one after the other: the host's writing of a channel of IN (R50, R61; log 10). -/
def writeSamples (m : Memory) (base : Nat) : List NUM → Memory
  | [] => m
  | v :: rest => writeSamples (writeNum m base v) (base + 8) rest

end Sys2Proof.Machine
end

