-- ==== Sys2Proof/Machine/Parts.lean ====
section
/-! DEFINITION. The state files of a connection as plain data (10_state.md R20 to R27). -/

namespace Sys2Proof.Machine

/-- One FilterState: the last two inputs and outputs of one biquad instance (R22). -/
structure FilterState where
  x1 : NUM
  x2 : NUM
  y1 : NUM
  y2 : NUM
deriving DecidableEq, Repr, Inhabited

/-- One BiquadCoefficients set, already divided by `a0` (R23). -/
structure Coefs where
  b0 : NUM
  b1 : NUM
  b2 : NUM
  a1 : NUM
  a2 : NUM
deriving DecidableEq, Repr, Inhabited

/-- One ThickenTracker (R25). `since` and `hcount` are naturals (R12). -/
structure ThickenTracker where
  last : NUM
  since : Nat
  hist : Vector NUM 4
  hidx : Fin 4
  hcount : Nat
  locked : NUM
  phase : NUM
  env : NUM
  sub : NUM
deriving DecidableEq, Repr, Inhabited

/-- One ChugTracker (R26). -/
structure ChugTracker where
  env : NUM
deriving DecidableEq, Repr, Inhabited

/-- One channel state bundle (R20). -/
structure Channel where
  fs : Vector FilterState 11
  th : ThickenTracker
  ch : ChugTracker
deriving DecidableEq, Repr, Inhabited

/-- The active settings snapshot, in the field order of R27. -/
structure Snapshot where
  inputGain : NUM
  inputTrim : NUM
  drive : NUM
  punish : Bool
  plus10db : Bool
  cleanse : Bool
  thickenEnabled : Bool
  thickenAmount : NUM
  chugEnabled : Bool
  chugAmount : NUM
  lowBoost : Bool
  bass : NUM
  mid : NUM
  treble : NUM
  presence : NUM
  peqEnabled : Bool
  peq0Freq : NUM
  peq0Gain : NUM
  peq0Q : NUM
  peq1Freq : NUM
  peq1Gain : NUM
  peq1Q : NUM
  peq2Freq : NUM
  peq2Gain : NUM
  peq2Q : NUM
  peq3Freq : NUM
  peq3Gain : NUM
  peq3Q : NUM
  lofiEnabled : Bool
  outputGain : NUM
  masterVolume : NUM
  outputTrim : NUM
deriving DecidableEq, Repr, Inhabited

/-- Reset values of a filter state: silence needs zeros (R36). -/
def filterReset : FilterState := ⟨Const.zero, Const.zero, Const.zero, Const.zero⟩

/-- Reset values of a Thicken tracker (R36). -/
def thickenReset : ThickenTracker :=
  { last := Const.zero, since := 0, hist := Vector.replicate 4 Const.zero, hidx := 0, hcount := 0
    locked := Const.zero, phase := Const.zero, env := Const.zero, sub := Const.zero }

/-- Reset values of a channel bundle (R36). -/
def channelReset : Channel :=
  { fs := Vector.replicate 11 filterReset, th := thickenReset, ch := ⟨Const.zero⟩ }

/-- The all-default snapshot: the static defaults of R27. -/
def snapshotDefault : Snapshot :=
  { inputGain := Const.one
    inputTrim := Const.one
    drive := Const.zero
    punish := false
    plus10db := false
    cleanse := false
    thickenEnabled := false
    thickenAmount := Const.zero
    chugEnabled := false
    chugAmount := Const.zero
    lowBoost := false
    bass := Const.five
    mid := Const.five
    treble := Const.five
    presence := Const.five
    peqEnabled := false
    peq0Freq := Const.peq0FreqDefault
    peq0Gain := Const.zero
    peq0Q := Const.one
    peq1Freq := Const.peq1FreqDefault
    peq1Gain := Const.zero
    peq1Q := Const.one
    peq2Freq := Const.peq2FreqDefault
    peq2Gain := Const.zero
    peq2Q := Const.one
    peq3Freq := Const.peq3FreqDefault
    peq3Gain := Const.zero
    peq3Q := Const.one
    lofiEnabled := false
    outputGain := Const.one
    masterVolume := Const.one
    outputTrim := Const.one }

end Sys2Proof.Machine
end

