-- ==== Sys2Proof/Machine/Design.lean ====
section
/-! DEFINITION. The Filter Coefficient Designer as a pure function (40_designer.md R101 to R112), every
product and sum as the rules parenthesise it (00_scope.md R9). It checks nothing (R112). -/

namespace Sys2Proof.Machine

/-- The six un-normalised cookbook terms (R105 to R109). -/
structure DesignTerms where
  b0 : NUM
  b1 : NUM
  b2 : NUM
  a0 : NUM
  a1 : NUM
  a2 : NUM
deriving DecidableEq, Repr

/-- `w0 = ((2 * PI) * f) / SR` (R101). -/
def designW0 (f sr : NUM) : NUM := Fp.div (Fp.mul (Fp.mul Const.two Const.pi) f) sr

/-- `A = Pow10(g / 40)` (R101). -/
def designA (fns : Nat) (g : NUM) : NUM := Config.pow10 fns (Fp.div g Const.forty)

/-- `alpha = sw / (2 * Q)`: peaking, lowpass and highpass (R102, R104). -/
def alphaQ (sw q : NUM) : NUM := Fp.div sw (Fp.mul Const.two q)

/-- `alpha = (sw / 2) * Sqrt((A + 1/A) * (1/S - 1) + 2)`: the shelves (R103). -/
def alphaShelf (a sw : NUM) : NUM :=
  Fp.mul (Fp.div sw Const.two)
    (Fp.sqrt
      (Fp.add
        (Fp.mul (Fp.add a (Fp.div Const.one a))
          (Fp.sub (Fp.div Const.one Const.shelfSlope) Const.one))
        Const.two))

/-- The low shelf (R105). -/
def lowshelfTerms (a cw alpha : NUM) : DesignTerms :=
  let tsa := Fp.mul (Fp.mul Const.two (Fp.sqrt a)) alpha
  let ap := Fp.add a Const.one
  let am := Fp.sub a Const.one
  { b0 := Fp.mul a (Fp.add (Fp.sub ap (Fp.mul am cw)) tsa)
    b1 := Fp.mul (Fp.mul Const.two a) (Fp.sub am (Fp.mul ap cw))
    b2 := Fp.mul a (Fp.sub (Fp.sub ap (Fp.mul am cw)) tsa)
    a0 := Fp.add (Fp.add ap (Fp.mul am cw)) tsa
    a1 := Fp.mul Const.minusTwo (Fp.add am (Fp.mul ap cw))
    a2 := Fp.sub (Fp.add ap (Fp.mul am cw)) tsa }

/-- The high shelf (R106). -/
def highshelfTerms (a cw alpha : NUM) : DesignTerms :=
  let tsa := Fp.mul (Fp.mul Const.two (Fp.sqrt a)) alpha
  let ap := Fp.add a Const.one
  let am := Fp.sub a Const.one
  { b0 := Fp.mul a (Fp.add (Fp.add ap (Fp.mul am cw)) tsa)
    b1 := Fp.mul (Fp.mul Const.minusTwo a) (Fp.add am (Fp.mul ap cw))
    b2 := Fp.mul a (Fp.sub (Fp.add ap (Fp.mul am cw)) tsa)
    a0 := Fp.add (Fp.sub ap (Fp.mul am cw)) tsa
    a1 := Fp.mul Const.two (Fp.sub am (Fp.mul ap cw))
    a2 := Fp.sub (Fp.sub ap (Fp.mul am cw)) tsa }

/-- The peaking filter (R107). -/
def peakingTerms (a cw alpha : NUM) : DesignTerms :=
  { b0 := Fp.add Const.one (Fp.mul alpha a)
    b1 := Fp.mul Const.minusTwo cw
    b2 := Fp.sub Const.one (Fp.mul alpha a)
    a0 := Fp.add Const.one (Fp.div alpha a)
    a1 := Fp.mul Const.minusTwo cw
    a2 := Fp.sub Const.one (Fp.div alpha a) }

/-- The lowpass (R108). -/
def lowpassTerms (cw alpha : NUM) : DesignTerms :=
  { b0 := Fp.div (Fp.sub Const.one cw) Const.two
    b1 := Fp.sub Const.one cw
    b2 := Fp.div (Fp.sub Const.one cw) Const.two
    a0 := Fp.add Const.one alpha
    a1 := Fp.mul Const.minusTwo cw
    a2 := Fp.sub Const.one alpha }

/-- The highpass (R109). -/
def highpassTerms (cw alpha : NUM) : DesignTerms :=
  { b0 := Fp.div (Fp.add Const.one cw) Const.two
    b1 := Fp.neg (Fp.add Const.one cw)
    b2 := Fp.div (Fp.add Const.one cw) Const.two
    a0 := Fp.add Const.one alpha
    a1 := Fp.mul Const.minusTwo cw
    a2 := Fp.sub Const.one alpha }

/-- The terms of each type from `A`, `cw`, `sw` and `Q` (R102 to R109). -/
def designTerms (type : FilterType) (a cw sw q : NUM) : DesignTerms :=
  match type with
  | .lowshelf => lowshelfTerms a cw (alphaShelf a sw)
  | .highshelf => highshelfTerms a cw (alphaShelf a sw)
  | .peaking => peakingTerms a cw (alphaQ sw q)
  | .lowpass => lowpassTerms cw (alphaQ sw q)
  | .highpass => highpassTerms cw (alphaQ sw q)

/-- Five divisions by `A0` (R111). -/
def normalise (t : DesignTerms) : Coefs :=
  { b0 := Fp.div t.b0 t.a0
    b1 := Fp.div t.b1 t.a0
    b2 := Fp.div t.b2 t.a0
    a1 := Fp.div t.a1 t.a0
    a2 := Fp.div t.a2 t.a0 }

/-- `Design(type, f, Q, g, SR)` (R100, R101, R111). -/
def design (fns : Nat) (type : FilterType) (f q g sr : NUM) : Coefs :=
  let w0 := designW0 f sr
  normalise (designTerms type (designA fns g) (Config.cos fns w0) (Config.sin fns w0) q)

end Sys2Proof.Machine
end

