-- ==== Sys2Proof/Machine/Operands.lean ====
section
/-! DEFINITION. Where operands come from: the designer arguments of each slot
(45_tonestack_peq_lofi.md R170 to R184), the resolution of a settings message
(46_block_processor.md R214), and the place of a sample in memory (20_memory.md R50 to R53). -/

namespace Sys2Proof.Machine

/-- `F_CEIL = Min(20000, 0.49 * SR)` (R184). -/
def fCeil (cfg : Cfg) : NUM := Fp.min Const.peqFMax (Fp.mul Const.nyquistShare cfg.sr)

/-- `ClampF(f) = Clamp(f, 20, F_CEIL)` (R184). -/
def clampF (cfg : Cfg) (f : NUM) : NUM := Fp.clamp f Const.peqFMin (fCeil cfg)

/-- `SliderDb(v, range) = ((v - 5) / 5) * range` (R176). -/
def sliderDb (v range : NUM) : NUM := Fp.mul (Fp.div (Fp.sub v Const.five) Const.five) range

/-- The designer arguments of a slot: `(type, f, Q, g)` (R170). -/
structure SlotParam where
  type : FilterType
  f : NUM
  q : NUM
  g : NUM
deriving DecidableEq, Repr

/-- A PEQ band: frequency, Q and gain clamped on use, the gain forced to 0 while the PEQ is disabled
(R177 to R179). -/
def peqParam (snap : Snapshot) (cfg : Cfg) (freq gain q : NUM) : SlotParam :=
  { type := .peaking
    f := clampF cfg freq
    q := Fp.clamp q Const.peqQMin Const.peqQMax
    g := if snap.peqEnabled then Fp.clamp gain Const.peqGMin Const.peqGMax else Const.zero }

/-- `PARAM(s, SNAP, CFG)` (R170 to R181). -/
def slotParam (snap : Snapshot) (cfg : Cfg) (s : Slot) : SlotParam :=
  match s with
  | 0 => ⟨.lowshelf, clampF cfg Const.lowBoostF, Const.one,
          if snap.lowBoost then Const.lowBoostDb else Const.zero⟩
  | 1 => ⟨.lowshelf, clampF cfg Const.bassF, Const.one, sliderDb snap.bass cfg.rangeBass⟩
  | 2 => ⟨.peaking, clampF cfg Const.midF, cfg.qMid, sliderDb snap.mid cfg.rangeMid⟩
  | 3 => ⟨.highshelf, clampF cfg Const.trebleF, Const.one, sliderDb snap.treble cfg.rangeTreble⟩
  | 4 => ⟨.highshelf, clampF cfg Const.presenceF, Const.one,
          sliderDb snap.presence cfg.rangePresence⟩
  | 5 => peqParam snap cfg snap.peq0Freq snap.peq0Gain snap.peq0Q
  | 6 => peqParam snap cfg snap.peq1Freq snap.peq1Gain snap.peq1Q
  | 7 => peqParam snap cfg snap.peq2Freq snap.peq2Gain snap.peq2Q
  | 8 => peqParam snap cfg snap.peq3Freq snap.peq3Gain snap.peq3Q
  | 9 => ⟨.lowpass, clampF cfg Const.lofiLpF, Const.lofiQ, Const.zero⟩
  | 10 => ⟨.highpass, clampF cfg Const.lofiHpF, Const.lofiQ, Const.zero⟩

/-- What `DSGN s, type` computes: `Design` on the slot's arguments (R100). -/
def slotCoefs (snap : Snapshot) (cfg : Cfg) (s : Slot) (type : FilterType) : Coefs :=
  let p := slotParam snap cfg s
  design cfg.fns type p.f p.q p.g cfg.sr

/-- The eleven coefficient sets of a snapshot, each slot with the type PARAM gives it, which is the
type of its designer-ROM descriptor (30_encoding.md R78). -/
def snapshotCoefs (snap : Snapshot) (cfg : Cfg) : Vector Coefs 11 :=
  Vector.ofFn (fun s : Fin 11 => slotCoefs snap cfg s (slotParam snap cfg s).type)

/-- A NUM field resolved: the message's value if it is present and finite, else the static default
(46_block_processor.md R214). -/
def resolveNum (field : Option NUM) (default : NUM) : NUM :=
  match field with
  | some v => if Fp.finite v then v else default
  | none => default

/-- A Bool field resolved (R214). -/
def resolveBool (field : Option Bool) (default : Bool) : Bool := field.getD default

/-- `Resolve(m)`: from a message to a complete snapshot (R214). -/
def resolve (m : SettingsMsg) : Snapshot :=
  let d := snapshotDefault
  { inputGain := resolveNum m.inputGain d.inputGain
    inputTrim := resolveNum m.inputTrim d.inputTrim
    drive := resolveNum m.drive d.drive
    punish := resolveBool m.punish d.punish
    plus10db := resolveBool m.plus10db d.plus10db
    cleanse := resolveBool m.cleanse d.cleanse
    thickenEnabled := resolveBool m.thickenEnabled d.thickenEnabled
    thickenAmount := resolveNum m.thickenAmount d.thickenAmount
    chugEnabled := resolveBool m.chugEnabled d.chugEnabled
    chugAmount := resolveNum m.chugAmount d.chugAmount
    lowBoost := resolveBool m.lowBoost d.lowBoost
    bass := resolveNum m.bass d.bass
    mid := resolveNum m.mid d.mid
    treble := resolveNum m.treble d.treble
    presence := resolveNum m.presence d.presence
    peqEnabled := resolveBool m.peqEnabled d.peqEnabled
    peq0Freq := resolveNum m.peq0Freq d.peq0Freq
    peq0Gain := resolveNum m.peq0Gain d.peq0Gain
    peq0Q := resolveNum m.peq0Q d.peq0Q
    peq1Freq := resolveNum m.peq1Freq d.peq1Freq
    peq1Gain := resolveNum m.peq1Gain d.peq1Gain
    peq1Q := resolveNum m.peq1Q d.peq1Q
    peq2Freq := resolveNum m.peq2Freq d.peq2Freq
    peq2Gain := resolveNum m.peq2Gain d.peq2Gain
    peq2Q := resolveNum m.peq2Q d.peq2Q
    peq3Freq := resolveNum m.peq3Freq d.peq3Freq
    peq3Gain := resolveNum m.peq3Gain d.peq3Gain
    peq3Q := resolveNum m.peq3Q d.peq3Q
    lofiEnabled := resolveBool m.lofiEnabled d.lofiEnabled
    outputGain := resolveNum m.outputGain d.outputGain
    masterVolume := resolveNum m.masterVolume d.masterVolume
    outputTrim := resolveNum m.outputTrim d.outputTrim }

/-- The address of frame `n` of a channel whose samples begin at `base`: eight bytes a NUM (R51 to R53,
R60; log 10). -/
def sampleAddr (base n : Nat) : Nat := base + 8 * n

/-- Two channels of `frames` samples share no byte (R65; log 12). -/
def spansDisjoint (frames a b : Nat) : Bool :=
  decide (a + 8 * frames ≤ b) || decide (b + 8 * frames ≤ a)

/-- No input channel shares a byte with an output channel, and the two output channels share none
(R52, R65; log 12). -/
def buffersDisjoint (frames : Nat) (ins : List Nat) (out0 out1 : Nat) : Bool :=
  spansDisjoint frames out0 out1 &&
  ins.all (fun base => spansDisjoint frames base out0 && spansDisjoint frames base out1)

end Sys2Proof.Machine
end

