-- ==== Sys2Proof/Machine/Roms.lean ====
section
/-! DEFINITION. The contents of the two ROMs (30_encoding.md R77, R78), as the words the spec prints. -/

namespace Sys2Proof.Machine

/-- The chain ROM: twenty descriptors, run for every channel and frame (R77). -/
def chainRomWords : List Word16 :=
  [0x1000, 0x2000, 0x3020, 0x4040, 0x5060, 0x6000, 0x6100, 0x6200, 0x6300, 0x6400,
   0x6500, 0x6600, 0x6700, 0x6800, 0x6980, 0x6A80, 0x7080, 0x8000, 0x9000, 0x0000]

/-- The designer ROM: twelve descriptors, run whenever a snapshot is applied (R78). -/
def designerRomWords : List Word16 :=
  [0xD000, 0xD100, 0xD202, 0xD301, 0xD401, 0xD502, 0xD602, 0xD702, 0xD802, 0xD903, 0xDA04, 0x0000]

end Sys2Proof.Machine
end

