-- ==== Sys2Proof/Machine/State.lean ====
section
/-! DEFINITION. The state of the machine (10_state.md R20 to R36, 20_memory.md R50), its reset, and the
reasons a step can stop. -/

namespace Sys2Proof.Machine

/-- The machine's state, plain data. -/
structure State where
  /-- `CONN` (R33). -/
  conn : Bool
  /-- `CFG`, fixed at CONNECT (00_scope.md R6). -/
  cfg : Cfg
  /-- The accumulator (R21). -/
  acc : NUM
  /-- The two channel bundles: `FS[c]`, `TH[c]`, `CH[c]` (R20). -/
  chans : Vector Channel 2
  /-- `COEF[0..10]` (R23). -/
  coef : Vector Coefs 11
  /-- `SNAP` (R27). -/
  snap : Snapshot
  /-- `AMOUNT` (R28). -/
  amount : NUM
  /-- `MUTED` (R29). -/
  muted : Bool
  /-- The sequencer: a block is in progress; channel; frame; next descriptor (R31). -/
  run : Bool
  cc : Chan
  nn : Nat
  spc : Nat
  /-- The mailbox: `PEND_SNAP`, `PEND_MUTE` (R32). -/
  pendSnap : Option SettingsMsg
  pendMute : Option Bool
  /-- Where the current block's input channels begin; NIN is the length (20_memory.md R51; log 13). -/
  ins : List Nat
  /-- Where the current block's output channels begin (20_memory.md R52; log 13). -/
  outs : Vector Nat 2
  /-- The memory that holds the buffers (20_memory.md R50; log 10). -/
  mem : Memory
  /-- The chain ROM, which no rule writes (R34, 30_encoding.md R77; log 9). -/
  chainRom : List Word16
  /-- The designer ROM, which no rule writes (R34, 30_encoding.md R78; log 9). -/
  designerRom : List Word16
  /-- The host's actions not yet taken (00_scope.md R4; log 8). The model's own field. -/
  inbox : List HostAction
  /-- Which free value comes next (log 6). The model's own field. -/
  free : Nat
deriving DecidableEq, Repr, Inhabited

/-- The hardware raises no exception, fault or trap (60_exceptions.md R240): there is no fault. -/
inductive Fault where
deriving DecidableEq, Repr

/-- Where the spec ends (60_exceptions.md R255): the model answers none of these with a state. Which is
named when several apply is log 30. Each is safe: the machine stops where the spec says nothing of what it
does. -/
inductive Refusal where
  /-- Raised by `exec` for an instruction without a meaning. Safe. -/
  | notModelled (mnemonic : String)
  /-- Raised by `PROCESS`, `UPDSET`, `SETMUTE` while `CONN` is false (R255 (1)). Safe. -/
  | notConnected
  /-- Raised by `PROCESS` while a block is in progress (the precondition of R205; log 18). Safe. -/
  | blockInProgress
  /-- Raised by `PROCESS` whose buffers overlap (R255 (2), R65). Safe. -/
  | buffersOverlap
  /-- Raised by `CONNECT` with a configuration that breaks R6 (R255 (3)). Safe. -/
  | badConfiguration
  /-- Raised by `CONNECT`, `PROCESS` and the fetch on a ROM word that is no descriptor (R255 (3), R83).
  Safe. -/
  | reservedDescriptor
  /-- Raised by the fetch when `spc` is past the end of a foreign chain ROM, and by the designer pass of a
  foreign designer ROM without `END` (R31, log 16). Safe. -/
  | romExhausted
  /-- Raised by the designer pass of a foreign designer ROM that holds a stage operation (R216, log 16).
  Safe. -/
  | notDesigner
deriving DecidableEq, Repr

/-- The state just after `CONNECT cfg`, as the table of R36 gives it, with nothing in memory or sent, the
ROMs of R77 and R78, and `acc` in the accumulator, whose value R36 leaves unspecified. -/
def State.resetWith (cfg : Cfg) (acc : NUM) : State :=
  { conn := true
    cfg := cfg
    acc := acc
    chans := Vector.replicate 2 channelReset
    coef := snapshotCoefs snapshotDefault cfg
    snap := snapshotDefault
    amount := shapeAmount cfg Const.zero false false
    muted := false
    run := false
    cc := 0
    nn := 0
    spc := 0
    pendSnap := none
    pendMute := none
    ins := []
    outs := Vector.replicate 2 0
    mem := []
    chainRom := chainRomWords
    designerRom := designerRomWords
    inbox := []
    free := 0 }

/-- The machine right after reset, which is `CONNECT` (70_reset_and_hazards.md R270, R271): the
configuration of log 4 and `+0.0` in the accumulator (log 5). -/
def State.reset : State := State.resetWith resetCfg Const.zero

end Sys2Proof.Machine

/-- The state after the `n`-th free value is drawn by a DISCONNECT: "all other state becomes unspecified"
(46_block_processor.md R202, 10_state.md R33; log 6). -/
opaque Sys2Proof.Config.stateAfterDisconnect (n : Nat) : Sys2Proof.Machine.State
end

