-- ==== Sys2Proof/Machine/Flags.lean ====
section
/-! DEFINITION. The Boolean conditions that steer execution (10_state.md R30): the enable predicates of
30_encoding.md R74 and the lock-active condition of 43_thicken.md R148. The hardware has no arithmetic
condition codes and no sticky flag (R30, R37), so nothing here is stored. -/

namespace Sys2Proof.Machine

/-- The predicate of a stage descriptor, evaluated against the active snapshot (R74). -/
def predHolds (snap : Snapshot) : Pred → Bool
  | .always => true
  | .ncl => !snap.cleanse
  | .thk => snap.thickenEnabled
  | .chg => snap.chugEnabled
  | .lofi => snap.lofiEnabled

/-- `active = (locked > 0) and (env > 0.01)` (R148). -/
def lockActive (t : ThickenTracker) : Bool :=
  Fp.lt Const.zero t.locked && Fp.lt Const.thGate t.env

end Sys2Proof.Machine
end

