-- ==== Sys2Proof/Machine/Ops.lean ====
section
/-! DEFINITION. The named operations the meanings share: reading and writing the state files, the
descriptor step (46_block_processor.md R207), the end of a frame (R208), the designer pass (R216) and the
boundary step (R213). The hardware takes no exception and returns from none (60_exceptions.md R240, R248,
R249), so there is no operation for either. -/

namespace Sys2Proof.Machine

/-- The bundle of the channel being processed (R20, R31). -/
def State.chan (s : State) : Channel := s.chans[s.cc]

/-- The accumulator written (R21). -/
def State.setAcc (s : State) (v : NUM) : State := { s with acc := v }

/-- The bundle of the channel being processed replaced. -/
def State.setChan (s : State) (b : Channel) : State :=
  { s with chans := s.chans.set s.cc.val b s.cc.isLt }

/-- `FS[cc][slot]` replaced (R22). -/
def State.setFilter (s : State) (slot : Slot) (f : FilterState) : State :=
  s.setChan { s.chan with fs := s.chan.fs.set slot.val f slot.isLt }

/-- `TH[cc]` replaced (R25). -/
def State.setThicken (s : State) (t : ThickenTracker) : State := s.setChan { s.chan with th := t }

/-- `CH[cc]` replaced (R26). -/
def State.setChug (s : State) (t : ChugTracker) : State := s.setChan { s.chan with ch := t }

/-- `COEF[slot]` replaced, all five fields at once (R24). -/
def State.setCoef (s : State) (slot : Slot) (k : Coefs) : State :=
  { s with coef := s.coef.set slot.val k slot.isLt }

/-- `spc <- spc + 1` (R31, R207). -/
def State.advance (s : State) : State := { s with spc := s.spc + 1 }

/-- `MemWrite(OUT, cc, nn, v)`: the output sample of the current channel and frame (20_memory.md R52). -/
def State.writeOut (s : State) (v : NUM) : State :=
  { s with mem := writeNum s.mem (sampleAddr s.outs[s.cc] s.nn) v }

/-- The address `LDIN` reads, if the block has an input channel at all: the current channel's, or channel
0's if it has no match (46_block_processor.md R209). -/
def State.inputAddr (s : State) : Option Nat :=
  match s.ins[s.cc.val]? with
  | some base => some (sampleAddr base s.nn)
  | none => (s.ins[0]?).map (fun base => sampleAddr base s.nn)

/-- A stage descriptor: the operation if its predicate holds, nothing at all if not; then `spc` moves on
(R207). -/
def staged (p : Pred) (op : State → State) (s : State) : State :=
  (if predHolds s.snap p then op s else s).advance

/-- `DSGN slot, type`: the five fields of `COEF[slot]` from `SNAP` and `CFG` (40_designer.md R100). -/
def designSlot (slot : Slot) (type : FilterType) (s : State) : State :=
  s.setCoef slot (slotCoefs s.snap s.cfg slot type)

/-- The sequencer after `END` in the chain ROM: the next frame, then the next channel, then the end of
the block, when the buffers go back to the host (R205, R208, R34). -/
def State.endFrame (s : State) : State :=
  if s.nn + 1 < s.cfg.blockLen then { s with spc := 0, nn := s.nn + 1 }
  else if s.cc = 0 then { s with spc := 0, nn := 0, cc := 1 }
  else { s with run := false, spc := 0, nn := 0, cc := 0, ins := [], outs := Vector.replicate 2 0 }

/-- The slot and type of a designer descriptor (40_designer.md R105 to R110). -/
def designOf : Instr → Option (Slot × FilterType)
  | .dsgnLowshelf slot => some (slot, .lowshelf)
  | .dsgnHighshelf slot => some (slot, .highshelf)
  | .dsgnPeaking slot => some (slot, .peaking)
  | .dsgnLowpass slot => some (slot, .lowpass)
  | .dsgnHighpass slot => some (slot, .highpass)
  | .dsgnOther slot _ => some (slot, .peaking)
  | _ => none

/-- The designer pass: the ROM's `DSGN` descriptors in order until `END` (R216). A ROM other than R78's
that is reserved, endless or holds a stage operation is refused (log 16). -/
def runDesigner : List Word16 → State → Except Refusal State
  | [], _ => .error .romExhausted
  | w :: rest, s =>
    match decodeDescriptor w with
    | .error _ => .error .reservedDescriptor
    | .ok .endPass => .ok s
    | .ok i =>
      match designOf i with
      | some (slot, type) => runDesigner rest (designSlot slot type s)
      | none => .error .notDesigner

/-- `ApplySnapshot(S)`: SNAP, AMOUNT and all of COEF, and nothing else (R216). -/
def applySnapshot (snap : Snapshot) (s : State) : Except Refusal State :=
  runDesigner s.designerRom
    { s with
      snap := snap
      amount := shapeAmount s.cfg snap.drive snap.punish snap.plus10db }

/-- A pending mute applied: MUTED and nothing else (R217). -/
def applyMute (pending : Option Bool) (s : State) : State :=
  match pending with
  | some b => { s with muted := b }
  | none => s

/-- The boundary step: the pending snapshot, then the pending mute, then both cells emptied (R213). -/
def boundary (s : State) : Except Refusal State :=
  let applied :=
    match s.pendSnap with
    | some m => applySnapshot (resolve m) s
    | none => .ok s
  match applied with
  | .ok t => .ok { applyMute s.pendMute t with pendSnap := none, pendMute := none }
  | .error r => .error r

/-- Every word of both ROMs is a descriptor (R255 (3), 30_encoding.md R83). -/
def State.romsLegal (s : State) : Bool :=
  (s.chainRom ++ s.designerRom).all (fun w => (decodeDescriptor w).toOption.isSome)

/-- A result that may be a refusal, as the outcome of a step. -/
def toOutcome : Except Refusal State → Host.Outcome State Fault Refusal
  | .ok s => .next s
  | .error r => .refused r

end Sys2Proof.Machine
end

