-- ==== Sys2Proof/Machine/Biquad.lean ====
section
/-! DEFINITION. `BQ` (41_biquad.md). -/

namespace Sys2Proof.Machine

/-- `y = ((((b0*x) + (b1*x1)) + (b2*x2)) - (a1*y1)) - (a2*y2)` (R120). -/
def biquadOut (k : Coefs) (st : FilterState) (x : NUM) : NUM :=
  Fp.sub
    (Fp.sub
      (Fp.add (Fp.add (Fp.mul k.b0 x) (Fp.mul k.b1 st.x1)) (Fp.mul k.b2 st.x2))
      (Fp.mul k.a1 st.y1))
    (Fp.mul k.a2 st.y2)

/-- The shift: x2 takes x1, x1 the input, y2 takes y1, y1 the output (R121). -/
def biquadShift (st : FilterState) (x y : NUM) : FilterState :=
  { x1 := x, x2 := st.x1, y1 := y, y2 := st.y1 }

/-- One executed `BQ slot` on the current channel (R120, R121). -/
def opBq (slot : Slot) (s : State) : State :=
  let st := s.chan.fs[slot]
  let y := biquadOut s.coef[slot] st s.acc
  (s.setFilter slot (biquadShift st s.acc y)).setAcc y

/-- `BQ slot [?PRED]` (R120). -/
def execBq (slot : Slot) (p : Pred) (s : State) : Host.Outcome State Fault Refusal :=
  .next (staged p (opBq slot) s)

end Sys2Proof.Machine
end

