-- ==== Sys2Proof/Machine/BlockProcessor.lean ====
section
/-! DEFINITION. The stage operations of the block processor: `LDIN`, `PREG`, `OUTG`, `STOUT`, `END`
(46_block_processor.md R208 to R212). -/

namespace Sys2Proof.Machine

/-- One executed `LDIN`: the channel's input sample, channel 0's if it has none, `+0.0` if the block has
no input channel (R209). -/
def opLdin (s : State) : State :=
  match s.inputAddr with
  | some addr => s.setAcc (readNum s.mem addr)
  | none => s.setAcc Const.zero

/-- `LDIN [?PRED]` (R209). -/
def execLdin (p : Pred) (s : State) : Host.Outcome State Fault Refusal :=
  .next (staged p opLdin s)

/-- One executed `PREG`: `acc <- (acc * inputTrim) * inputGain` (R210). -/
def opPreg (s : State) : State :=
  s.setAcc (Fp.mul (Fp.mul s.acc s.snap.inputTrim) s.snap.inputGain)

/-- `PREG [?PRED]` (R210). -/
def execPreg (p : Pred) (s : State) : Host.Outcome State Fault Refusal :=
  .next (staged p opPreg s)

/-- One executed `OUTG`: the constant `+0.0` when muted, else
`((acc * outputGain) * masterVolume) * outputTrim` (R211). -/
def opOutg (s : State) : State :=
  if s.muted then s.setAcc Const.zero
  else
    s.setAcc
      (Fp.mul (Fp.mul (Fp.mul s.acc s.snap.outputGain) s.snap.masterVolume) s.snap.outputTrim)

/-- `OUTG [?PRED]` (R211). -/
def execOutg (p : Pred) (s : State) : Host.Outcome State Fault Refusal :=
  .next (staged p opOutg s)

/-- One executed `STOUT`: `MemWrite(OUT, cc, nn, acc)` (R212). -/
def opStout (s : State) : State := s.writeOut s.acc

/-- `STOUT [?PRED]` (R212). -/
def execStout (p : Pred) (s : State) : Host.Outcome State Fault Refusal :=
  .next (staged p opStout s)

/-- `END` in the chain ROM (R208). -/
def execEndPass (s : State) : Host.Outcome State Fault Refusal := .next s.endFrame

end Sys2Proof.Machine
end

