-- ==== Sys2Proof/Machine/Chug.lean ====
section
/-! DEFINITION. `CHUG` (44_chug.md). -/

namespace Sys2Proof.Machine

/-- `env <- (env * 0.995) + (Abs(x) * 0.005)` (R161). -/
def chugStep (t : ChugTracker) (x : NUM) : ChugTracker :=
  { t with env := Fp.add (Fp.mul t.env Const.envKeep) (Fp.mul (Fp.abs x) Const.envIn) }

/-- `transient = Max(0, Abs(x) - (env * 1.5))`, the envelope already updated (R162). -/
def chugTransient (t : ChugTracker) (x : NUM) : NUM :=
  Fp.max Const.zero (Fp.sub (Fp.abs x) (Fp.mul t.env Const.chugThresh))

/-- `acc <- x * (1 + ((transient * chugAmount) * 4))` (R163). -/
def chugOut (t : ChugTracker) (amount x : NUM) : NUM :=
  Fp.mul x (Fp.add Const.one (Fp.mul (Fp.mul (chugTransient t x) amount) Const.four))

/-- One executed `CHUG` on the current channel (R160). -/
def opChug (s : State) : State :=
  let t := chugStep s.chan.ch s.acc
  (s.setChug t).setAcc (chugOut t s.snap.chugAmount s.acc)

/-- `CHUG [?PRED]` (R160, R164). -/
def execChug (p : Pred) (s : State) : Host.Outcome State Fault Refusal :=
  .next (staged p opChug s)

end Sys2Proof.Machine
end

