-- ==== Sys2Proof/Machine/Designer.lean ====
section
/-! DEFINITION. The six rows of `DSGN` and `TRIM` (40_designer.md R100, R105 to R110;
45_tonestack_peq_lofi.md R182). A `DSGN` descriptor has no predicate and moves `spc` on like every
descriptor but `END` (30_encoding.md R72, 10_state.md R31; log 19). -/

namespace Sys2Proof.Machine

/-- `DSGN slot, LOWSHELF` (R105). -/
def execDsgnLowshelf (slot : Slot) (s : State) : Host.Outcome State Fault Refusal :=
  .next (designSlot slot .lowshelf s).advance

/-- `DSGN slot, HIGHSHELF` (R106). -/
def execDsgnHighshelf (slot : Slot) (s : State) : Host.Outcome State Fault Refusal :=
  .next (designSlot slot .highshelf s).advance

/-- `DSGN slot, PEAKING` (R107). -/
def execDsgnPeaking (slot : Slot) (s : State) : Host.Outcome State Fault Refusal :=
  .next (designSlot slot .peaking s).advance

/-- `DSGN slot, LOWPASS` (R108). -/
def execDsgnLowpass (slot : Slot) (s : State) : Host.Outcome State Fault Refusal :=
  .next (designSlot slot .lowpass s).advance

/-- `DSGN slot, HIGHPASS` (R109). -/
def execDsgnHighpass (slot : Slot) (s : State) : Host.Outcome State Fault Refusal :=
  .next (designSlot slot .highpass s).advance

/-- `DSGN slot, <5..255>`: exactly what PEAKING does, and no record of it (R110, 60_exceptions.md R244). -/
def execDsgnOther (slot : Slot) (s : State) : Host.Outcome State Fault Refusal :=
  .next (designSlot slot .peaking s).advance

/-- One executed `TRIM`: `acc <- acc * 0.8` (R182). -/
def opTrim (s : State) : State := s.setAcc (Fp.mul s.acc Const.lofiTrim)

/-- `TRIM [?PRED]` (R182). -/
def execTrim (p : Pred) (s : State) : Host.Outcome State Fault Refusal :=
  .next (staged p opTrim s)

end Sys2Proof.Machine
end

