-- ==== Sys2Proof/Machine/Protocol.lean ====
section
/-! DEFINITION. The control messages `UPDSET`, `SETMUTE` and the host signals `CONNECT`, `PROCESS`,
`DISCONNECT` (46_block_processor.md R201 to R205, 20_memory.md R55). -/

namespace Sys2Proof.Machine

/-- `UPDSET m`: `PEND_SNAP <- some m` (R203); refused without a connection (60_exceptions.md R255). -/
def execUpdset (m : SettingsMsg) (s : State) : Host.Outcome State Fault Refusal :=
  if s.conn then .next { s with pendSnap := some m } else .refused .notConnected

/-- `SETMUTE b`: `PEND_MUTE <- some b` (R204); refused without a connection (60_exceptions.md R255). -/
def execSetmute (b : Bool) (s : State) : Host.Outcome State Fault Refusal :=
  if s.conn then .next { s with pendMute := some b } else .refused .notConnected

/-- The state CONNECT begins with: the reset values, but for what no connection owns (memory, ROMs, the
host's actions) and an accumulator no one knows (R36; logs 5, 26). The coefficients and AMOUNT are then
computed by applying the default snapshot. -/
def connectBase (cfg : Cfg) (s : State) : State :=
  { State.resetWith cfg (Config.accAtConnect s.free) with
    mem := s.mem
    chainRom := s.chainRom
    designerRom := s.designerRom
    inbox := s.inbox
    free := s.free + 1 }

/-- `CONNECT(cfg)`: the reset (R201, 70_reset_and_hazards.md R270). A configuration that breaks R6 or a
ROM with a reserved word is refused (60_exceptions.md R255). DESIGN CHOICE (log 30): where both hold, the
configuration is the reason named. -/
def execConnect (cfg : Cfg) (s : State) : Host.Outcome State Fault Refusal :=
  if cfgValid cfg then
    if s.romsLegal then toOutcome (applySnapshot snapshotDefault (connectBase cfg s))
    else .refused .reservedDescriptor
  else .refused .badConfiguration

/-- The block begun: `run`, and channel 0, frame 0, descriptor 0 (R205). -/
def beginBlock (ins : List Nat) (out0 out1 : Nat) (s : State) : State :=
  { s with run := true, cc := 0, nn := 0, spc := 0, ins := ins, outs := #v[out0, out1] }

/-- `PROCESS(nin, in, out)`: the boundary step, then the block begun; the descriptor steps that follow run
the block, and its last `END` ends it (R205; log 7). DESIGN CHOICE (log 30): where several refusals apply,
the reason named is the first of no connection, a block in progress, overlap, a reserved word. -/
def execProcess (ins : List Nat) (out0 out1 : Nat) (s : State) : Host.Outcome State Fault Refusal :=
  if s.conn then
    if s.run then .refused .blockInProgress
    else if buffersDisjoint s.cfg.blockLen ins out0 out1 then
      if s.romsLegal then toOutcome ((boundary s).map (beginBlock ins out0 out1))
      else .refused .reservedDescriptor
    else .refused .buffersOverlap
  else .refused .notConnected

/-- `DISCONNECT`: `CONN <- false`, and all other state of the connection is whatever it is; memory, ROMs
and the host's actions are not the connection's (R202, 10_state.md R33; log 6). -/
def execDisconnect (s : State) : Host.Outcome State Fault Refusal :=
  .next
    { Config.stateAfterDisconnect s.free with
      conn := false
      mem := s.mem
      chainRom := s.chainRom
      designerRom := s.designerRom
      inbox := s.inbox
      free := s.free + 1 }

end Sys2Proof.Machine
end

