-- ==== Sys2Proof/Machine/Shaper.lean ====
section
/-! DEFINITION. `SHAPE` (42_shaper.md). -/

namespace Sys2Proof.Machine

/-- `Shape(x, a)`: the identity for `a = 0` (R132), else
`(((3 + a) * x) * k) / (PI + (a * Abs(x)))` (R131). -/
def shaper (k x a : NUM) : NUM :=
  if Fp.eq a Const.zero then x
  else
    Fp.div (Fp.mul (Fp.mul (Fp.add Const.shapeC a) x) k) (Fp.add Const.pi (Fp.mul a (Fp.abs x)))

/-- One executed `SHAPE`: `acc <- Shape(acc, AMOUNT)` (R130, R134). -/
def opShape (s : State) : State := s.setAcc (shaper s.cfg.kShape s.acc s.amount)

/-- `SHAPE [?PRED]` (R130). -/
def execShape (p : Pred) (s : State) : Host.Outcome State Fault Refusal :=
  .next (staged p opShape s)

end Sys2Proof.Machine
end

