-- ==== Sys2Proof/Machine/Thicken.lean ====
section
/-! DEFINITION. `THICK` (43_thicken.md): the seven steps of one sample, each a function of the tracker the
step before left, in the order of R155. -/

namespace Sys2Proof.Machine

/-- `crossing = (last <= 0) and (x > 0)` (R142). -/
def risingCrossing (t : ThickenTracker) (x : NUM) : Bool :=
  Fp.le t.last Const.zero && Fp.lt Const.zero x

/-- `(40 <= p) and (p < 1500)` (R143). -/
def periodAccepted (p : NUM) : Bool := Fp.le Const.forty p && Fp.lt p Const.thPmax

/-- A candidate more than 15 % away from the locked period (R144). -/
def disqualifies (t : ThickenTracker) (p : NUM) : Bool :=
  Fp.lt Const.zero t.locked &&
  Fp.lt (Fp.mul Const.thDev t.locked) (Fp.abs (Fp.sub p t.locked))

/-- Step 3: a disqualifying candidate clears the ring and the lock (R144). -/
def unlockOnJump (t : ThickenTracker) (p : NUM) : ThickenTracker :=
  if disqualifies t p then
    { t with hist := Vector.replicate 4 Const.zero, hidx := 0, hcount := 0, locked := Const.zero }
  else t

/-- Step 4a: the candidate overwrites the oldest ring entry (R145). -/
def pushPeriod (t : ThickenTracker) (p : NUM) : ThickenTracker :=
  { t with
    hist := t.hist.set t.hidx.val p t.hidx.isLt
    hidx := t.hidx + 1
    hcount := min 4 (t.hcount + 1) }

/-- `mean = (((h[0] + h[1]) + h[2]) + h[3]) / 4` (R146). -/
def ringMean (h : Vector NUM 4) : NUM :=
  Fp.div (Fp.add (Fp.add (Fp.add h[0] h[1]) h[2]) h[3]) Const.four

/-- The largest absolute difference between an entry and the mean (R146). -/
def ringDev (h : Vector NUM 4) (mean : NUM) : NUM :=
  Fp.max
    (Fp.max (Fp.max (Fp.abs (Fp.sub h[0] mean)) (Fp.abs (Fp.sub h[1] mean)))
      (Fp.abs (Fp.sub h[2] mean)))
    (Fp.abs (Fp.sub h[3] mean))

/-- Step 4b: four entries within 15 % of their mean lock to it (R146). -/
def evaluateLock (t : ThickenTracker) : ThickenTracker :=
  if t.hcount = 4 ∧ Fp.lt (ringDev t.hist (ringMean t.hist)) (Fp.mul Const.thDev (ringMean t.hist)) then
    { t with locked := ringMean t.hist }
  else t

/-- Steps 3 and 4 on an accepted candidate (R144 to R146). -/
def acceptPeriod (t : ThickenTracker) (p : NUM) : ThickenTracker :=
  evaluateLock (pushPeriod (unlockOnJump t p) p)

/-- Steps 1 to 4: the counter, the crossing and its candidate (R141 to R146). -/
def trackPeriod (t : ThickenTracker) (x : NUM) : ThickenTracker :=
  let counted := { t with since := t.since + 1 }
  if risingCrossing counted x then
    let p := Fp.ofNat counted.since
    let restarted := { counted with since := 0 }
    if periodAccepted p then acceptPeriod restarted p else restarted
  else counted

/-- The last sample and step 5: `env <- (env * 0.995) + (Abs(x) * 0.005)` (R151, R147). -/
def followSample (t : ThickenTracker) (x : NUM) : ThickenTracker :=
  { t with
    last := x
    env := Fp.add (Fp.mul t.env Const.envKeep) (Fp.mul (Fp.abs x) Const.envIn) }

/-- `2 * PI` (R149). -/
def twoPi : NUM := Fp.mul Const.two Const.pi

/-- The phase advanced by `(2 * PI) / (2 * locked)` and wrapped by one subtraction (R149). -/
def advancePhase (phase locked : NUM) : NUM :=
  let moved := Fp.add phase (Fp.div twoPi (Fp.mul Const.two locked))
  if Fp.le twoPi moved then Fp.sub moved twoPi else moved

/-- Step 6: the oscillator and the sub-gain ramp (R148, R149). -/
def oscillate (t : ThickenTracker) : ThickenTracker :=
  if lockActive t then
    { t with
      phase := advancePhase t.phase t.locked
      sub := Fp.min Const.one (Fp.add t.sub Const.thAttack) }
  else { t with sub := Fp.max Const.zero (Fp.sub t.sub Const.thRelease) }

/-- The tracker after one executed `THICK` on `x` (R155). -/
def thickenStep (t : ThickenTracker) (x : NUM) : ThickenTracker :=
  oscillate (followSample (trackPeriod t x) x)

/-- Step 7: `x + ((((Sin(phase) * env) * sub) * thickenAmount) * 2.5)` (R150). -/
def thickenMix (fns : Nat) (t : ThickenTracker) (amount x : NUM) : NUM :=
  Fp.add x
    (Fp.mul (Fp.mul (Fp.mul (Fp.mul (Config.sin fns t.phase) t.env) t.sub) amount) Const.thMix)

/-- One executed `THICK` on the current channel (R140, R155). -/
def opThick (s : State) : State :=
  let t := thickenStep s.chan.th s.acc
  (s.setThicken t).setAcc (thickenMix s.cfg.fns t s.snap.thickenAmount s.acc)

/-- `THICK [?PRED]` (R140, R152). -/
def execThick (p : Pred) (s : State) : Host.Outcome State Fault Refusal :=
  .next (staged p opThick s)

end Sys2Proof.Machine
end

