-- ==== Sys2Proof/Machine/Dispatch.lean ====
section
/-! DEFINITION. The meaning of every instruction, one arm a constructor. -/

namespace Sys2Proof.Machine

/-- What an instruction does. -/
def exec (i : Instr) (s : State) : Host.Outcome State Fault Refusal :=
  match i with
  | .endPass => Sys2Proof.Machine.execEndPass s
  | .ldin p => Sys2Proof.Machine.execLdin p s
  | .preg p => Sys2Proof.Machine.execPreg p s
  | .shape p => Sys2Proof.Machine.execShape p s
  | .thick p => Sys2Proof.Machine.execThick p s
  | .chug p => Sys2Proof.Machine.execChug p s
  | .bq slot p => Sys2Proof.Machine.execBq slot p s
  | .trim p => Sys2Proof.Machine.execTrim p s
  | .outg p => Sys2Proof.Machine.execOutg p s
  | .stout p => Sys2Proof.Machine.execStout p s
  | .dsgnLowshelf slot => Sys2Proof.Machine.execDsgnLowshelf slot s
  | .dsgnHighshelf slot => Sys2Proof.Machine.execDsgnHighshelf slot s
  | .dsgnPeaking slot => Sys2Proof.Machine.execDsgnPeaking slot s
  | .dsgnLowpass slot => Sys2Proof.Machine.execDsgnLowpass slot s
  | .dsgnHighpass slot => Sys2Proof.Machine.execDsgnHighpass slot s
  | .dsgnOther slot _ => Sys2Proof.Machine.execDsgnOther slot s
  | .updset m => Sys2Proof.Machine.execUpdset m s
  | .setmute b => Sys2Proof.Machine.execSetmute b s
  | .connect cfg => Sys2Proof.Machine.execConnect cfg s
  | .process ins out0 out1 => Sys2Proof.Machine.execProcess ins out0 out1 s
  | .disconnect => Sys2Proof.Machine.execDisconnect s

end Sys2Proof.Machine
end

