-- ==== Sys2Proof/Machine/Fetch.lean ====
section
/-! DEFINITION. What the step reads next: a descriptor of the chain ROM while a block is in progress, else
the host's next action (00_scope.md R4, R15; 20_memory.md R57; log 8). -/

namespace Sys2Proof.Machine

/-- What happens next. -/
inductive Event where
  /-- An instruction is executed, by the audio agent or on the host's message or signal. -/
  | run (i : Instr)
  /-- A malformed message is discarded whole (30_encoding.md R84). -/
  | discard
  /-- The host writes samples into a buffer (20_memory.md R50, R61). -/
  | store (base : Nat) (samples : List NUM)
  /-- Nothing pending: the hardware is idle (60_exceptions.md R253). -/
  | idle
  /-- The ROM holds no descriptor here. -/
  | stuck (r : Refusal)
deriving DecidableEq, Repr

/-- The descriptor at `spc` (46_block_processor.md R207). -/
def fetchDescriptor (s : State) : Event :=
  match s.chainRom[s.spc]? with
  | none => .stuck .romExhausted
  | some w =>
    match decodeDescriptor w with
    | .ok i => .run i
    | .error _ => .stuck .reservedDescriptor

/-- The host's action decoded. -/
def hostEvent : HostAction → Event
  | .message words =>
    match decodeMessage words with
    | .ok i => .run i
    | .error _ => .discard
  | .signal sig => .run (decodeSignal sig)
  | .store base samples => .store base samples

/-- The sequencer runs: there is a connection and a block is in progress (10_state.md R31, R33). -/
def State.inBlock (s : State) : Bool := s.conn && s.run

/-- What happens next, and the state it happens in: a host action is taken from the inbox. -/
def fetch (s : State) : Event × State :=
  if s.inBlock then (fetchDescriptor s, s)
  else
    match s.inbox with
    | [] => (.idle, s)
    | action :: rest => (hostEvent action, { s with inbox := rest })

/-- `s` with the instruction of an opcode-table row where the next step takes it: up to 16 bits in the
chain ROM at the sequencer's place, more as the host's next message. -/
def placeWord (s : State) (nbits w : Nat) : State :=
  if nbits = 0 then s
  else if nbits ≤ 16 then
    { s with
      conn := true
      run := true
      spc := 0
      chainRom := BitVec.ofNat 16 w :: s.chainRom.drop 1 }
  else
    { s with
      conn := true
      run := false
      inbox := .message (tableMessage w) :: s.inbox }

end Sys2Proof.Machine
end

