-- ==== Sys2Proof/Machine/Step.lean ====
section
/-! DEFINITION. One step of the machine: one descriptor, or one action of the host between blocks. -/

namespace Sys2Proof.Machine

/-- One step. -/
def step (s : State) : Host.Outcome State Fault Refusal :=
  match fetch s with
  | (.run i, t) => exec i t
  | (.discard, t) => .next t
  | (.store base samples, t) => .next { t with mem := writeSamples t.mem base samples }
  | (.idle, t) => .next t
  | (.stuck r, _) => .refused r

/-- `s` with an instruction of the opcode table placed where the next step fetches (log 9). -/
def State.withFetchWord (s : State) (nbits w : Nat) : State := placeWord s nbits w

end Sys2Proof.Machine
end

