-- ==== Sys2Proof/Safety.lean ====
section
/-! DEFINITION. What counts as a safe state and a safe step: the invariants the spec states of the machine
(10_state.md R25, R27, R31; 43_thicken.md R154; 20_memory.md R62) and the terms the statements use. -/

namespace Sys2Proof.Machine

/-- The step goes on. -/
def goesOn (o : Host.Outcome State Fault Refusal) : Prop := ∃ t, o = .next t

/-- Every NUM field of a snapshot is finite (10_state.md R27). -/
def snapshotFinite (p : Snapshot) : Bool :=
  [p.inputGain, p.inputTrim, p.drive, p.thickenAmount, p.chugAmount, p.bass, p.mid, p.treble,
   p.presence, p.peq0Freq, p.peq0Gain, p.peq0Q, p.peq1Freq, p.peq1Gain, p.peq1Q, p.peq2Freq,
   p.peq2Gain, p.peq2Q, p.peq3Freq, p.peq3Gain, p.peq3Q, p.outputGain, p.masterVolume,
   p.outputTrim].all Fp.finite

/-- The message that carries every field of a snapshot. -/
def fullMessage (p : Snapshot) : SettingsMsg :=
  { inputGain := some p.inputGain, inputTrim := some p.inputTrim, drive := some p.drive
    punish := some p.punish, plus10db := some p.plus10db, cleanse := some p.cleanse
    thickenEnabled := some p.thickenEnabled, thickenAmount := some p.thickenAmount
    chugEnabled := some p.chugEnabled, chugAmount := some p.chugAmount, lowBoost := some p.lowBoost
    bass := some p.bass, mid := some p.mid, treble := some p.treble, presence := some p.presence
    peqEnabled := some p.peqEnabled
    peq0Freq := some p.peq0Freq, peq0Gain := some p.peq0Gain, peq0Q := some p.peq0Q
    peq1Freq := some p.peq1Freq, peq1Gain := some p.peq1Gain, peq1Q := some p.peq1Q
    peq2Freq := some p.peq2Freq, peq2Gain := some p.peq2Gain, peq2Q := some p.peq2Q
    peq3Freq := some p.peq3Freq, peq3Gain := some p.peq3Gain, peq3Q := some p.peq3Q
    lofiEnabled := some p.lofiEnabled, outputGain := some p.outputGain
    masterVolume := some p.masterVolume, outputTrim := some p.outputTrim }

/-- All five fields of a coefficient set are finite. -/
def coefsFinite (k : Coefs) : Bool := [k.b0, k.b1, k.b2, k.a1, k.a2].all Fp.finite

/-- All four fields of a filter state are `+0` or `-0` (41_biquad.md R125). -/
def filterSilent (f : FilterState) : Bool := [f.x1, f.x2, f.y1, f.y2].all Fp.isZero

/-- One filter run over coefficient sets and inputs in turn: its outputs and the state it is left in
(41_biquad.md R120 to R122). -/
def biquadRun : FilterState → List (Coefs × NUM) → List NUM × FilterState
  | f, [] => ([], f)
  | f, (k, x) :: rest =>
    let y := biquadOut k f x
    let after := biquadRun (biquadShift f x y) rest
    (y :: after.1, after.2)

/-- The ring of a tracker has at most four entries, and a lock needs all four (43_thicken.md R154). -/
def ringOk (t : ThickenTracker) : Prop :=
  t.hcount ≤ 4 ∧ (Fp.lt Const.zero t.locked = true → t.hcount = 4)

/-- `v` lies in `[0, 1]` (10_state.md R25: `sub`). -/
def unitInterval (v : NUM) : Bool := Fp.le Const.zero v && Fp.le v Const.one

/-- The sequencer's ranges: a frame of the block and a descriptor of the ROM while a block is in
progress, zero between blocks (10_state.md R31). -/
def sequencerOk (s : State) : Prop :=
  (s.run = true → s.nn < s.cfg.blockLen ∧ s.spc < 20) ∧
  (s.run = false → s.cc = 0 ∧ s.nn = 0 ∧ s.spc = 0)

/-- What holds of a connection in every reachable state. -/
structure ConnectionOk (s : State) : Prop where
  cfg : cfgValid s.cfg = true
  sequencer : sequencerOk s
  snap : snapshotFinite s.snap = true
  amount : nonnegative s.amount = true
  rings : ∀ c : Chan, ringOk s.chans[c].th

/-- The invariant of the machine. -/
structure Invariant (s : State) : Prop where
  mem : s.mem.wf = true
  chainRom : s.chainRom = chainRomWords
  designerRom : s.designerRom = designerRomWords
  connection : s.conn = true → ConnectionOk s

/-- `k` steps of the machine, stopping at the first refusal. -/
def stepN : Nat → State → Host.Outcome State Fault Refusal
  | 0, s => .next s
  | k + 1, s =>
    match step s with
    | .next t => stepN k t
    | .fault r => .fault r
    | .refused r => .refused r

/-- The predicate of a stage descriptor, if the instruction is one that carries a predicate
(30_encoding.md R71, R74). -/
def stagePred : Instr → Option Pred
  | .ldin p => some p
  | .preg p => some p
  | .shape p => some p
  | .thick p => some p
  | .chug p => some p
  | .bq _ p => some p
  | .trim p => some p
  | .outg p => some p
  | .stout p => some p
  | _ => none

/-- The descriptors that move `spc` on by one: all but `END` (10_state.md R31). -/
def advances (i : Instr) : Bool := (stagePred i).isSome || (designOf i).isSome

/-- What R83 of 30_encoding.md calls a legal descriptor. -/
def legalDescriptor (w : Word16) : Prop :=
  let op := (w.extractLsb' 12 4).toNat
  let idx := (w.extractLsb' 8 4).toNat
  let stage := (w.extractLsb' 5 3).toNat ≤ 4 ∧ (w.extractLsb' 0 5).toNat = 0
  w = 0x0000#16 ∨
  ((1 ≤ op ∧ op ≤ 5 ∨ 7 ≤ op ∧ op ≤ 9) ∧ idx = 0 ∧ stage) ∨
  (op = 6 ∧ idx ≤ 10 ∧ stage) ∨
  (op = 0xD ∧ idx ≤ 10)

/-- Control messages posted in order into the mailbox (20_memory.md R55). -/
def postAll : List (SettingsMsg ⊕ Bool) → State → State
  | [], s => s
  | .inl m :: rest, s => postAll rest { s with pendSnap := some m }
  | .inr b :: rest, s => postAll rest { s with pendMute := some b }

/-- Control messages applied one after the other, as an in-order channel that keeps them all would have
them applied at a boundary (20_memory.md R56). -/
def applyAll : List (SettingsMsg ⊕ Bool) → State → Except Refusal State
  | [], s => .ok s
  | .inl m :: rest, s =>
    match applySnapshot (resolve m) s with
    | .ok t => applyAll rest t
    | .error r => .error r
  | .inr b :: rest, s => applyAll rest { s with muted := b }

/-- What 43_thicken.md R154 says of a tracker fed with samples that are not NaN: the ring's valid entries
are integers in `[40, 1500)`, the next free slot is the first one that holds none, `locked` is 0 or in
`[40, 1500)` with a full ring, and `sub`, `phase`, `env` keep their ranges. -/
structure TrackerOk (t : ThickenTracker) : Prop where
  count : t.hcount ≤ 4
  next : t.hcount < 4 → t.hidx.val = t.hcount
  entries : ∀ i : Fin 4, i.val < t.hcount → ∃ k, 40 ≤ k ∧ k < 1500 ∧ t.hist[i] = Fp.ofNat k
  locked : t.locked = Const.zero ∨
    (t.hcount = 4 ∧ Fp.le Const.forty t.locked = true ∧ Fp.lt t.locked Const.thPmax = true)
  sub : unitInterval t.sub = true
  phase : Fp.le Const.zero t.phase = true ∧ Fp.lt t.phase twoPi = true
  env : Fp.le Const.zero t.env = true

/-- The pseudocode of 43_thicken.md R155 up to the tracker's last update, in one piece; the model's
`thickenStep` does the same in seven operations. -/
def thickenPseudocode (t0 : ThickenTracker) (x : NUM) : ThickenTracker :=
  have t1 : ThickenTracker := { t0 with since := t0.since + 1 }
  have per : NUM := Fp.ofNat t1.since
  have t2 : ThickenTracker := { t1 with since := 0 }
  have t3 : ThickenTracker :=
    if Fp.lt Const.zero t2.locked = true ∧
        Fp.lt (Fp.mul Const.thDev t2.locked) (Fp.abs (Fp.sub per t2.locked)) = true then
      { t2 with
        hist := #v[Const.zero, Const.zero, Const.zero, Const.zero]
        hidx := 0
        hcount := 0
        locked := Const.zero }
    else t2
  have t4 : ThickenTracker :=
    { t3 with
      hist := t3.hist.set t3.hidx.val per t3.hidx.isLt
      hidx := t3.hidx + 1
      hcount := min 4 (t3.hcount + 1) }
  have mean : NUM :=
    Fp.div (Fp.add (Fp.add (Fp.add t4.hist[0] t4.hist[1]) t4.hist[2]) t4.hist[3]) Const.four
  have dev : NUM :=
    Fp.max (Fp.max (Fp.max (Fp.abs (Fp.sub t4.hist[0] mean)) (Fp.abs (Fp.sub t4.hist[1] mean)))
      (Fp.abs (Fp.sub t4.hist[2] mean))) (Fp.abs (Fp.sub t4.hist[3] mean))
  have t5 : ThickenTracker :=
    if t4.hcount = 4 ∧ Fp.lt dev (Fp.mul Const.thDev mean) = true then { t4 with locked := mean }
    else t4
  have t6 : ThickenTracker :=
    if Fp.le t1.last Const.zero = true ∧ Fp.lt Const.zero x = true then
      if Fp.le Const.forty per = true ∧ Fp.lt per Const.thPmax = true then t5 else t2
    else t1
  have t7 : ThickenTracker :=
    { t6 with
      last := x
      env := Fp.add (Fp.mul t6.env Const.envKeep) (Fp.mul (Fp.abs x) Const.envIn) }
  have turn : NUM := Fp.mul Const.two Const.pi
  have moved : NUM := Fp.add t7.phase (Fp.div turn (Fp.mul Const.two t7.locked))
  if Fp.lt Const.zero t7.locked = true ∧ Fp.lt Const.thGate t7.env = true then
    { t7 with
      phase := if Fp.le turn moved = true then Fp.sub moved turn else moved
      sub := Fp.min Const.one (Fp.add t7.sub Const.thAttack) }
  else { t7 with sub := Fp.max Const.zero (Fp.sub t7.sub Const.thRelease) }

/-- Nothing but zeros has entered the chain, every setting and coefficient is finite, and the input of the
running block is silent (46_block_processor.md R222). -/
structure Silent (s : State) : Prop where
  acc : Fp.isZero s.acc = true
  filters : ∀ (c : Chan) (slot : Slot), filterSilent s.chans[c].fs[slot] = true
  trackers : ∀ c : Chan, Fp.isZero s.chans[c].th.env = true ∧ Fp.isZero s.chans[c].th.sub = true ∧
    Fp.isZero s.chans[c].ch.env = true
  coefs : ∀ slot : Slot, coefsFinite s.coef[slot] = true
  snap : snapshotFinite s.snap = true
  amount : nonnegative s.amount = true
  kShape : Fp.finite s.cfg.kShape = true
  mem : s.mem.wf = true
  input : s.run = true →
    s.nn < s.cfg.blockLen ∧
    buffersDisjoint s.cfg.blockLen s.ins s.outs[(0 : Chan)] s.outs[(1 : Chan)] = true ∧
    ∀ base ∈ s.ins, ∀ n, n < s.cfg.blockLen →
      Fp.isZero (readNum s.mem (sampleAddr base n)) = true

end Sys2Proof.Machine
end

