-- ==== Sys2Proof/Certificates/Slice0/Obligations.lean ====
section
/-! DEFINITION. The statements for the provers. Each docstring says which rule of spec/ a statement
formalises; where one rests on a choice of the model it names the log entry. -/

open Sys2Proof Sys2Proof.Machine

/-! ## Encoding -/

/-- Words written out from 30_encoding.md sections 2 to 4 and 95_test_vectors.md section 2.1, read by the
decoder; the `UPDSET` is the example of 46_block_processor.md R203. -/
def Obligations.WrittenOutWordsDecode : Prop :=
  decodeDescriptor 0x0000#16 = .ok .endPass ∧
  decodeDescriptor 0x1000#16 = .ok (.ldin .always) ∧
  decodeDescriptor 0x3020#16 = .ok (.shape .ncl) ∧
  decodeDescriptor 0x4040#16 = .ok (.thick .thk) ∧
  decodeDescriptor 0x5060#16 = .ok (.chug .chg) ∧
  decodeDescriptor 0x6A80#16 = .ok (.bq 10 .lofi) ∧
  decodeDescriptor 0x6040#16 = .ok (.bq 0 .thk) ∧
  decodeDescriptor 0x7080#16 = .ok (.trim .lofi) ∧
  decodeDescriptor 0xD903#16 = .ok (.dsgnLowpass 9) ∧
  decodeDescriptor 0xD57F#16 = .ok (.dsgnOther 5 0x7F#8) ∧
  decodeDescriptor 0x0100#16 = .error .endNotZero ∧
  decodeDescriptor 0x1001#16 = .error .reservedBits ∧
  decodeDescriptor 0x1100#16 = .error .idxNotZero ∧
  decodeDescriptor 0x60A0#16 = .error .reservedPred ∧
  decodeDescriptor 0x6B00#16 = .error .slotOutOfRange ∧
  decodeDescriptor 0xA000#16 = .error .reservedOp ∧
  decodeMessage ([0x0100000040000021#64, 0x3FE0000000000000#64, 0, 0, 0, 0, 1] ++
    List.replicate 24 0#64 ++ [0x3FE0000000000000#64, 0]) =
    .ok (.updset { SettingsMsg.empty with
      cleanse := some true, inputGain := some 0x3FE0000000000000#64
      masterVolume := some 0x3FE0000000000000#64 }) ∧
  decodeMessage [0x0200000000000001#64] = .ok (.setmute true) ∧
  decodeMessage [0x0200000000000002#64] = .error .headerNotZero ∧
  decodeMessage [0x0300000000000000#64] = .error .badMsgop

/-- Decoding the code of a well-formed instruction gives it back, with every operand (30_encoding.md
sections 2, 4 and 6). -/
def Obligations.DecodeOfEncodeGivesBackTheInstruction : Prop :=
  ∀ i : Instr, i.wellFormed = true → decode (encode i) = .ok i

/-- The decoder accepts exactly the legal descriptors of 30_encoding.md R83, and each has one meaning:
encoding what a word decodes to gives the word back, and what it decodes to is well formed (section 5). -/
def Obligations.LegalDescriptorsHaveOneMeaning : Prop :=
  ∀ w : Word16, ((∃ i, decodeDescriptor w = .ok i) ↔ legalDescriptor w) ∧
    ∀ i : Instr, decodeDescriptor w = .ok i → encode i = .descriptor w ∧ i.wellFormed = true

/-- The decoder accepts exactly the messages that are not malformed (30_encoding.md R79 to R85): a header
of `UPDSET` with bits 55:32 zero and 32 payload words, or one of `SETMUTE` with bits 55:1 zero and none.
That a longer message is malformed is the reading of log 14. What it reads: field `i` of `UPDSET` is
present iff bit `i` of the header is set, a NUM is payload word `i` whatever its bits, a Bool is bit 0 of
it, and the words of absent fields are ignored; the flag of `SETMUTE` is bit 0. -/
def Obligations.MessagesAreExactlyTheWellFormedOnes : Prop :=
  (∀ words : List Word64, (∃ i, decodeMessage words = .ok i) ↔
    ∃ header payload, words = header :: payload ∧
      (((header.extractLsb' 56 8).toNat = 1 ∧ (header.extractLsb' 32 24).toNat = 0 ∧
          payload.length = 32) ∨
       ((header.extractLsb' 56 8).toNat = 2 ∧ (header.extractLsb' 1 55).toNat = 0 ∧ payload = []))) ∧
  (∀ header : Word64, (header.extractLsb' 56 8).toNat = 2 → (header.extractLsb' 1 55).toNat = 0 →
    decodeMessage [header] = .ok (.setmute (header.getLsbD 0))) ∧
  ∀ (header : Word64) (payload : List Word64), (header.extractLsb' 56 8).toNat = 1 →
    (header.extractLsb' 32 24).toNat = 0 → payload.length = 32 →
    let num := fun i : Nat => if header.getLsbD i then payload[i]? else none
    let bool := fun i : Nat => (num i).map (fun word => word.getLsbD 0)
    decodeMessage (header :: payload) = .ok (.updset
      { inputGain := num 0
        inputTrim := num 1
        drive := num 2
        punish := bool 3
        plus10db := bool 4
        cleanse := bool 5
        thickenEnabled := bool 6
        thickenAmount := num 7
        chugEnabled := bool 8
        chugAmount := num 9
        lowBoost := bool 10
        bass := num 11
        mid := num 12
        treble := num 13
        presence := num 14
        peqEnabled := bool 15
        peq0Freq := num 16
        peq0Gain := num 17
        peq0Q := num 18
        peq1Freq := num 19
        peq1Gain := num 20
        peq1Q := num 21
        peq2Freq := num 22
        peq2Gain := num 23
        peq2Q := num 24
        peq3Freq := num 25
        peq3Gain := num 26
        peq3Q := num 27
        lofiEnabled := bool 28
        outputGain := num 29
        masterVolume := num 30
        outputTrim := num 31 })

/-- R82: the layout of `SETMUTE`, and its two words. -/
def Obligations.SetmuteIsOneWordWithItsFlagInBitZero : Prop :=
  encode (.setmute true) = .message [0x0200000000000001#64] ∧
  encode (.setmute false) = .message [0x0200000000000000#64] ∧
  ∀ (word : Word64) (b : Bool), decodeMessage [word] = .ok (.setmute b) ↔
    (word.extractLsb' 56 8 = 0x02#8 ∧ word.extractLsb' 1 55 = 0#55 ∧ word.getLsbD 0 = b)

/-- R87: every pseudo-instruction expands to the words the table lists; `UPDSET` with nothing present
leaves every field at its default. -/
def Obligations.PseudoInstructionsExpandAsListed : Prop :=
  Instr.tonestack.map encode = [.descriptor 0x6000#16, .descriptor 0x6100#16, .descriptor 0x6200#16,
    .descriptor 0x6300#16, .descriptor 0x6400#16] ∧
  Instr.peq.map encode = [.descriptor 0x6500#16, .descriptor 0x6600#16, .descriptor 0x6700#16,
    .descriptor 0x6800#16] ∧
  Instr.lofi.map encode = [.descriptor 0x6980#16, .descriptor 0x6A80#16, .descriptor 0x7080#16] ∧
  Instr.chain.map encode = chainRomWords.map Code.descriptor ∧
  Instr.design.map encode = designerRomWords.map Code.descriptor ∧
  Instr.mute = .setmute true ∧ Instr.unmute = .setmute false ∧
  encode (.updset SettingsMsg.empty) = .message (0x0100000000000000#64 :: List.replicate 32 0#64) ∧
  resolve SettingsMsg.empty = snapshotDefault

/-! ## The step -/

/-- Inside a block the step is `exec` of the descriptor at `spc` (46_block_processor.md R207): nothing is
added around it. -/
def Obligations.StepRunsTheDescriptorAtSpc : Prop :=
  ∀ (s : State) (w : Word16) (i : Instr), s.conn = true → s.run = true →
    s.chainRom[s.spc]? = some w → decodeDescriptor w = .ok i →
    i.wellFormed = true ∧ step s = exec i s

/-- Between blocks, or without a connection, the step takes the host's next action off the inbox (the model's
interface, log 8): a message that decodes or a signal is executed; a malformed message is discarded whole
(30_encoding.md R84; that it is so without a connection too is log 15); samples are stored (20_memory.md R61):
each reads back at its place, frame `n` at `base + 8 n` (log 10), and every other byte reads as before; with
nothing to take the state stays (60_exceptions.md R253; that this is a step is log 22). -/
def Obligations.StepBetweenBlocksTakesTheHostsNextAction : Prop :=
  ∀ (s : State) (rest : List HostAction), (s.conn = false ∨ s.run = false) →
    (∀ words i, s.inbox = .message words :: rest → decodeMessage words = .ok i →
      step s = exec i { s with inbox := rest }) ∧
    (∀ words e, s.inbox = .message words :: rest → decodeMessage words = .error e →
      step s = .next { s with inbox := rest }) ∧
    (∀ sig, s.inbox = .signal sig :: rest → step s = exec (decodeSignal sig) { s with inbox := rest }) ∧
    (∀ (base : Nat) (samples : List NUM), s.inbox = .store base samples :: rest →
      let m := writeSamples s.mem base samples
      step s = .next { s with inbox := rest, mem := m } ∧
      (s.mem.wf = true → m.wf = true ∧
        (∀ (n : Nat) (h : n < samples.length), readNum m (base + 8 * n) = samples[n]) ∧
        ∀ addr, (addr < base ∨ base + 8 * samples.length ≤ addr) →
          readByte m addr = readByte s.mem addr)) ∧
    (s.inbox = [] → step s = .next s)

/-- Nothing happens mid-block (46_block_processor.md R220, 20_memory.md R57): inside a block the host's
pending actions neither change what the step does nor are changed by it. -/
def Obligations.HostActionsWaitForTheBlock : Prop :=
  ∀ (s t : State) (actions : List HostAction), s.conn = true → s.run = true → step s = .next t →
    t.inbox = s.inbox ∧ step { s with inbox := actions } = .next { t with inbox := actions }

/-! ## Stage operations -/

/-- `LDIN` (46_block_processor.md R209): the current channel's sample, channel 0's when the channel has no
input, `+0.0` when the block has none; a sample is eight bytes, frame `n` at `base + 8 n` (log 10).
Nothing else changes but `spc`. -/
def Obligations.LdinLoadsTheInputSample : Prop :=
  ∀ (p : Pred) (s : State),
    (predHolds s.snap p = false → exec (.ldin p) s = .next { s with spc := s.spc + 1 }) ∧
    (predHolds s.snap p = true →
      (∀ h : s.cc.val < s.ins.length, exec (.ldin p) s =
        .next { s with acc := readNum s.mem (s.ins[s.cc.val] + 8 * s.nn), spc := s.spc + 1 }) ∧
      (s.ins.length ≤ s.cc.val → ∀ h : 0 < s.ins.length, exec (.ldin p) s =
        .next { s with acc := readNum s.mem (s.ins[0] + 8 * s.nn), spc := s.spc + 1 }) ∧
      (s.ins = [] → exec (.ldin p) s = .next { s with acc := 0x0000000000000000#64, spc := s.spc + 1 }))

/-- R210: `PREG`, its word and its example. -/
def Obligations.PregScalesByTrimThenGain : Prop :=
  (∀ p : Pred, encode (.preg p) = .descriptor (0x2000#16 ||| ((encodePred p).setWidth 16 <<< 5))) ∧
  chainRomWords[1]? = some 0x2000#16 ∧
  (∀ (p : Pred) (s : State), exec (.preg p) s = .next { s with
    acc := if predHolds s.snap p then Fp.mul (Fp.mul s.acc s.snap.inputTrim) s.snap.inputGain else s.acc
    spc := s.spc + 1 }) ∧
  Fp.mul (Fp.mul 0x3FD0000000000000#64 0x4000000000000000#64) 0x3FF0000000000000#64 =
    0x3FE0000000000000#64

/-- R211: `OUTG`, its word, its two examples, and that muting answers `+0.0` whatever the accumulator
holds. -/
def Obligations.OutgAppliesTheGainsOrMutes : Prop :=
  (∀ p : Pred, encode (.outg p) = .descriptor (0x8000#16 ||| ((encodePred p).setWidth 16 <<< 5))) ∧
  chainRomWords[17]? = some 0x8000#16 ∧
  (∀ (p : Pred) (s : State), exec (.outg p) s = .next { s with
    acc :=
      if predHolds s.snap p then
        if s.muted then 0x0000000000000000#64
        else Fp.mul (Fp.mul (Fp.mul s.acc s.snap.outputGain) s.snap.masterVolume) s.snap.outputTrim
      else s.acc
    spc := s.spc + 1 }) ∧
  Fp.mul (Fp.mul (Fp.mul 0x3FF0000000000000#64 0x3FF0000000000000#64) 0x3FE0000000000000#64)
    0x3FF0000000000000#64 = 0x3FE0000000000000#64

/-- `STOUT` (46_block_processor.md R212): the NUM at the output channel's place for the frame becomes the
accumulator, every byte outside those eight keeps its value, the canonical form of memory is kept, and
nothing else changes but `spc` (the place is log 10's). -/
def Obligations.StoutWritesOneSample : Prop :=
  ∀ (p : Pred) (s : State), s.mem.wf = true →
    ∃ m : Memory, exec (.stout p) s = .next { s with mem := m, spc := s.spc + 1 } ∧
      m.wf = true ∧
      (predHolds s.snap p = false → m = s.mem) ∧
      (predHolds s.snap p = true → readNum m (s.outs[s.cc] + 8 * s.nn) = s.acc) ∧
      ∀ addr, (addr < s.outs[s.cc] + 8 * s.nn ∨ s.outs[s.cc] + 8 * s.nn + 8 ≤ addr) →
        readByte m addr = readByte s.mem addr

/-- `END` (46_block_processor.md R205, R208, 10_state.md R31): the next frame; after the last frame of
channel 0 the first of channel 1; after the last of channel 1 no block. No other register changes, but
that the buffers are given up at the end (R34; log 13). -/
def Obligations.EndMovesToTheNextFrameOrEndsTheBlock : Prop :=
  ∀ s : State,
    (s.nn + 1 < s.cfg.blockLen → exec .endPass s = .next { s with spc := 0, nn := s.nn + 1 }) ∧
    (s.cfg.blockLen ≤ s.nn + 1 → s.cc = 0 → exec .endPass s = .next { s with spc := 0, nn := 0, cc := 1 }) ∧
    (s.cfg.blockLen ≤ s.nn + 1 → s.cc = 1 → exec .endPass s = .next { s with
      run := false, spc := 0, nn := 0, cc := 0, ins := [], outs := #v[0, 0] })

/-- R120 and R121: `BQ`, its word, the direct form in the rule's order, the shift from the state before it,
only the slot of the current channel written, and the rule's example. -/
def Obligations.BqFiltersTheAccumulator : Prop :=
  (∀ (slot : Slot) (p : Pred), encode (.bq slot p) =
    .descriptor (0x6000#16 ||| (BitVec.ofNat 16 slot.val <<< 8) ||| ((encodePred p).setWidth 16 <<< 5))) ∧
  biquadRun ⟨0, 0, 0, 0⟩ ([0x3FF0000000000000#64, 0, 0, 0, 0, 0].map (fun x =>
      (⟨0x3FE0000000000000#64, 0x3FD0000000000000#64, 0x3FC0000000000000#64, 0xBFE0000000000000#64,
        0x3FD0000000000000#64⟩, x))) =
    ([0x3FE0000000000000#64, 0x3FE0000000000000#64, 0x3FD0000000000000#64, 0x0000000000000000#64,
      0xBFB0000000000000#64, 0xBFA0000000000000#64],
     ⟨0, 0, 0xBFA0000000000000#64, 0xBFB0000000000000#64⟩) ∧
  ∀ (slot : Slot) (p : Pred) (s : State),
    let k := s.coef[slot]
    let f := s.chans[s.cc].fs[slot]
    let y := Fp.sub (Fp.sub (Fp.add (Fp.add (Fp.mul k.b0 s.acc) (Fp.mul k.b1 f.x1)) (Fp.mul k.b2 f.x2))
      (Fp.mul k.a1 f.y1)) (Fp.mul k.a2 f.y2)
    ∃ t, exec (.bq slot p) s = .next t ∧
      (predHolds s.snap p = false → t = { s with spc := s.spc + 1 }) ∧
      (predHolds s.snap p = true →
        t = { s with acc := y, chans := t.chans, spc := s.spc + 1 } ∧
        t.chans[s.cc].fs[slot] = { x1 := s.acc, x2 := f.x1, y1 := y, y2 := f.y1 } ∧
        (∀ other : Slot, other ≠ slot → t.chans[s.cc].fs[other] = s.chans[s.cc].fs[other]) ∧
        t.chans[s.cc].th = s.chans[s.cc].th ∧ t.chans[s.cc].ch = s.chans[s.cc].ch ∧
        ∀ c : Chan, c ≠ s.cc → t.chans[c] = s.chans[c])

/-- `SHAPE` (42_shaper.md R130 to R132, R134): the identity at amount 0, else the formula; `acc` and `spc`
alone change. -/
def Obligations.ShapeFollowsItsFormula : Prop :=
  ∀ (p : Pred) (s : State), exec (.shape p) s = .next { s with
    acc :=
      if predHolds s.snap p = true ∧ Fp.eq s.amount 0#64 = false then
        Fp.div (Fp.mul (Fp.mul (Fp.add 0x4008000000000000#64 s.amount) s.acc) s.cfg.kShape)
          (Fp.add 0x400921FB54442D18#64 (Fp.mul s.amount (Fp.abs s.acc)))
      else s.acc
    spc := s.spc + 1 }

/-- `THICK` (43_thicken.md R140, R155): the rule's pseudocode in one piece; only `acc`, the current
channel's tracker and `spc` change. -/
def Obligations.ThickFollowsItsPseudocode : Prop :=
  ∀ (p : Pred) (s : State),
    let t := thickenPseudocode s.chans[s.cc].th s.acc
    (predHolds s.snap p = false → exec (.thick p) s = .next { s with spc := s.spc + 1 }) ∧
    (predHolds s.snap p = true → exec (.thick p) s = .next { s with
      acc := Fp.add s.acc (Fp.mul (Fp.mul (Fp.mul (Fp.mul (Config.sin s.cfg.fns t.phase) t.env) t.sub)
        s.snap.thickenAmount) Const.thMix)
      chans := s.chans.set s.cc.val { s.chans[s.cc] with th := t } s.cc.isLt
      spc := s.spc + 1 })

/-- `CHUG` (44_chug.md R160 to R164): envelope first, then the transient and the gain; only `acc`, the
current channel's envelope and `spc` change. -/
def Obligations.ChugFollowsItsFormulas : Prop :=
  ∀ (p : Pred) (s : State),
    let env := Fp.add (Fp.mul s.chans[s.cc].ch.env Const.envKeep) (Fp.mul (Fp.abs s.acc) Const.envIn)
    let transient := Fp.max Const.zero (Fp.sub (Fp.abs s.acc) (Fp.mul env Const.chugThresh))
    let gain := Fp.add Const.one (Fp.mul (Fp.mul transient s.snap.chugAmount) Const.four)
    (predHolds s.snap p = false → exec (.chug p) s = .next { s with spc := s.spc + 1 }) ∧
    (predHolds s.snap p = true → exec (.chug p) s = .next { s with
      acc := Fp.mul s.acc gain
      chans := s.chans.set s.cc.val { s.chans[s.cc] with ch := ⟨env⟩ } s.cc.isLt
      spc := s.spc + 1 })

/-- R182: `TRIM`, its word, its constant (0.8 rounded once) and its example. -/
def Obligations.TrimScalesByFourFifths : Prop :=
  (∀ p : Pred, encode (.trim p) = .descriptor (0x7000#16 ||| ((encodePred p).setWidth 16 <<< 5))) ∧
  chainRomWords[16]? = some 0x7080#16 ∧ decodeDescriptor 0x7080#16 = .ok (.trim .lofi) ∧
  (∀ (p : Pred) (s : State), exec (.trim p) s = .next { s with
    acc := if predHolds s.snap p then Fp.mul s.acc Const.lofiTrim else s.acc
    spc := s.spc + 1 }) ∧
  Const.lofiTrim = Fp.div (Fp.ofNat 8) (Fp.ofNat 10) ∧
  Fp.mul 0x3FE0000000000000#64 Const.lofiTrim = 0x3FD999999999999A#64

/-! ## The designer -/

/-- `DSGN slot, TYPE` for the five types (40_designer.md R100, R105 to R109): one coefficient set, replaced
whole by `Design` on the slot's arguments; nothing else changes but `spc` (log 19). -/
def Obligations.DsgnWritesOneCoefficientSet : Prop :=
  ∀ (slot : Slot) (s : State),
    let arg := slotParam s.snap s.cfg slot
    let wrote := fun (type : FilterType) (i : Instr) =>
      ∃ t, exec i s = .next t ∧ t = { s with coef := t.coef, spc := s.spc + 1 } ∧
        t.coef[slot] = design s.cfg.fns type arg.f arg.q arg.g s.cfg.sr ∧
        ∀ other : Slot, other ≠ slot → t.coef[other] = s.coef[other]
    wrote .lowshelf (.dsgnLowshelf slot) ∧ wrote .highshelf (.dsgnHighshelf slot) ∧
    wrote .peaking (.dsgnPeaking slot) ∧ wrote .lowpass (.dsgnLowpass slot) ∧
    wrote .highpass (.dsgnHighpass slot)

/-- R110: an unrecognized type behaves exactly as PEAKING; the designer ROM holds none; the example. -/
def Obligations.UnrecognizedTypesBehaveAsPeaking : Prop :=
  (∀ (slot : Slot) (type : BitVec 8) (s : State), 5 ≤ type.toNat →
    ∃ t, exec (.dsgnOther slot type) s = .next t ∧ exec (.dsgnPeaking slot) s = .next t) ∧
  (∀ w ∈ designerRomWords, ∀ (slot : Slot) (type : BitVec 8),
    decodeDescriptor w ≠ .ok (.dsgnOther slot type)) ∧
  decodeDescriptor 0xD57F#16 = .ok (.dsgnOther 5 0x7F#8) ∧
  ∀ s : State, exec (.dsgnOther 5 0x7F#8) s = exec (.dsgnPeaking 5) s

/-- The designer's formulas (40_designer.md R101 to R111), each type written out. No rule defines the unary
minus of the high pass's `B1`; that it flips the sign bit is log 21. -/
def Obligations.DesignFollowsTheCookbook : Prop :=
  ∀ (fns : Nat) (f q g sr : NUM),
    let w0 := Fp.div (Fp.mul (Fp.mul Const.two Const.pi) f) sr
    let a := Config.pow10 fns (Fp.div g Const.forty)
    let cw := Config.cos fns w0
    let sw := Config.sin fns w0
    let alphaQ := Fp.div sw (Fp.mul Const.two q)
    let alphaS := Fp.mul (Fp.div sw Const.two) (Fp.sqrt (Fp.add (Fp.mul (Fp.add a (Fp.div Const.one a))
      (Fp.sub (Fp.div Const.one Const.shelfSlope) Const.one)) Const.two))
    let tsa := Fp.mul (Fp.mul Const.two (Fp.sqrt a)) alphaS
    let ap := Fp.add a Const.one
    let am := Fp.sub a Const.one
    let divided := fun (b0 b1 b2 a0 a1 a2 : NUM) =>
      (⟨Fp.div b0 a0, Fp.div b1 a0, Fp.div b2 a0, Fp.div a1 a0, Fp.div a2 a0⟩ : Coefs)
    design fns .lowshelf f q g sr =
      divided (Fp.mul a (Fp.add (Fp.sub ap (Fp.mul am cw)) tsa))
        (Fp.mul (Fp.mul Const.two a) (Fp.sub am (Fp.mul ap cw)))
        (Fp.mul a (Fp.sub (Fp.sub ap (Fp.mul am cw)) tsa))
        (Fp.add (Fp.add ap (Fp.mul am cw)) tsa)
        (Fp.mul Const.minusTwo (Fp.add am (Fp.mul ap cw)))
        (Fp.sub (Fp.add ap (Fp.mul am cw)) tsa) ∧
    design fns .highshelf f q g sr =
      divided (Fp.mul a (Fp.add (Fp.add ap (Fp.mul am cw)) tsa))
        (Fp.mul (Fp.mul Const.minusTwo a) (Fp.add am (Fp.mul ap cw)))
        (Fp.mul a (Fp.sub (Fp.add ap (Fp.mul am cw)) tsa))
        (Fp.add (Fp.sub ap (Fp.mul am cw)) tsa)
        (Fp.mul Const.two (Fp.sub am (Fp.mul ap cw)))
        (Fp.sub (Fp.sub ap (Fp.mul am cw)) tsa) ∧
    design fns .peaking f q g sr =
      divided (Fp.add Const.one (Fp.mul alphaQ a)) (Fp.mul Const.minusTwo cw)
        (Fp.sub Const.one (Fp.mul alphaQ a)) (Fp.add Const.one (Fp.div alphaQ a))
        (Fp.mul Const.minusTwo cw) (Fp.sub Const.one (Fp.div alphaQ a)) ∧
    design fns .lowpass f q g sr =
      divided (Fp.div (Fp.sub Const.one cw) Const.two) (Fp.sub Const.one cw)
        (Fp.div (Fp.sub Const.one cw) Const.two) (Fp.add Const.one alphaQ)
        (Fp.mul Const.minusTwo cw) (Fp.sub Const.one alphaQ) ∧
    design fns .highpass f q g sr =
      divided (Fp.div (Fp.add Const.one cw) Const.two) (Fp.neg (Fp.add Const.one cw))
        (Fp.div (Fp.add Const.one cw) Const.two) (Fp.add Const.one alphaQ)
        (Fp.mul Const.minusTwo cw) (Fp.sub Const.one alphaQ)

/-- A peaking set at `A = 1` has `b0 = 1`, `b1 = a1` and `b2 = a2` bit for bit (40_designer.md R113), wherever
its `A0` is finite and not zero. -/
def Obligations.PeakingAtZeroGainHasMatchingCoefficients : Prop :=
  ∀ cw alpha : NUM,
    Fp.finite (peakingTerms Const.one cw alpha).a0 = true →
    Fp.isZero (peakingTerms Const.one cw alpha).a0 = false →
    let k := normalise (peakingTerms Const.one cw alpha)
    k.b0 = Const.one ∧ k.b1 = k.a1 ∧ k.b2 = k.a2

/-- Both shelf sets at `A = 1` have `b0 = 1`, `b1 = a1` and `b2 = a2` bit for bit (40_designer.md R113),
wherever `A0` is finite and not zero and `cw` is finite and not zero (at `cw = 0` the two middle terms are
zeros of opposite sign, log 28). -/
def Obligations.ShelvesAtZeroGainHaveMatchingCoefficients : Prop :=
  ∀ cw alpha : NUM, Fp.finite cw = true → Fp.isZero cw = false →
    (Fp.finite (lowshelfTerms Const.one cw alpha).a0 = true →
      Fp.isZero (lowshelfTerms Const.one cw alpha).a0 = false →
      let k := normalise (lowshelfTerms Const.one cw alpha)
      k.b0 = Const.one ∧ k.b1 = k.a1 ∧ k.b2 = k.a2) ∧
    (Fp.finite (highshelfTerms Const.one cw alpha).a0 = true →
      Fp.isZero (highshelfTerms Const.one cw alpha).a0 = false →
      let k := normalise (highshelfTerms Const.one cw alpha)
      k.b0 = Const.one ∧ k.b1 = k.a1 ∧ k.b2 = k.a2)

/-! ## Slot parameters and settings -/

/-- PARAM meets the designer's preconditions on frequency and Q (40_designer.md R112,
45_tonestack_peq_lofi.md R170, R178, R184) for every finite snapshot and valid configuration whose sample
rate is a normal number (of subnormal rates `0.49 * SR` may round to 0 or to half the rate, log 28); and
the gain is finite in slots 0 and 5 to 10. Slots 1 to 4 are not said to have a finite gain: a slider that
is finite and huge overflows `SliderDb` (log 28; for sliders in `[0, 10]` see SliderEndsAreTheRange). -/
def Obligations.ParamMeetsTheDesignersPreconditions : Prop :=
  ∀ (snap : Snapshot) (cfg : Cfg) (s : Slot), snapshotFinite snap = true → cfgValid cfg = true →
    Fp.le 0x0010000000000000#64 cfg.sr = true →
    let arg := slotParam snap cfg s
    Fp.finite arg.f = true ∧ Fp.lt Const.zero arg.f = true ∧
    Fp.lt arg.f (Fp.div cfg.sr Const.two) = true ∧
    Fp.finite arg.q = true ∧ Fp.lt Const.zero arg.q = true ∧
    (s = 0 ∨ 5 ≤ s.val → Fp.finite arg.g = true)

/-- PARAM of every slot at every sample rate (45_tonestack_peq_lofi.md R171 to R181, R184): `F_CEIL` and
`ClampF`, and each slot's type, frequency, Q and gain, a PEQ band clamped on use and flat when disabled;
and at 44.1 kHz and 48 kHz `F_CEIL` is 20000 and the fixed frequencies pass `ClampF` unchanged. -/
def Obligations.ParamFollowsItsTable : Prop :=
  ∀ (snap : Snapshot) (cfg : Cfg),
    let one : NUM := 0x3FF0000000000000#64
    let band := fun freq gain q : NUM =>
      (⟨.peaking, clampF cfg freq, Fp.clamp q 0x3FB999999999999A#64 0x4024000000000000#64,
        if snap.peqEnabled then Fp.clamp gain 0xC028000000000000#64 0x4028000000000000#64 else 0#64⟩ :
        SlotParam)
    fCeil cfg = Fp.min 0x40D3880000000000#64 (Fp.mul 0x3FDF5C28F5C28F5C#64 cfg.sr) ∧
    (∀ f : NUM, clampF cfg f = Fp.min (Fp.max f 0x4034000000000000#64) (fCeil cfg)) ∧
    slotParam snap cfg 0 = ⟨.lowshelf, clampF cfg 0x4054000000000000#64, one,
      if snap.lowBoost then 0x4020000000000000#64 else 0#64⟩ ∧
    slotParam snap cfg 1 = ⟨.lowshelf, clampF cfg 0x4069000000000000#64, one,
      sliderDb snap.bass cfg.rangeBass⟩ ∧
    slotParam snap cfg 2 = ⟨.peaking, clampF cfg 0x408F400000000000#64, cfg.qMid,
      sliderDb snap.mid cfg.rangeMid⟩ ∧
    slotParam snap cfg 3 = ⟨.highshelf, clampF cfg 0x40AF400000000000#64, one,
      sliderDb snap.treble cfg.rangeTreble⟩ ∧
    slotParam snap cfg 4 = ⟨.highshelf, clampF cfg 0x40B7700000000000#64, one,
      sliderDb snap.presence cfg.rangePresence⟩ ∧
    slotParam snap cfg 5 = band snap.peq0Freq snap.peq0Gain snap.peq0Q ∧
    slotParam snap cfg 6 = band snap.peq1Freq snap.peq1Gain snap.peq1Q ∧
    slotParam snap cfg 7 = band snap.peq2Freq snap.peq2Gain snap.peq2Q ∧
    slotParam snap cfg 8 = band snap.peq3Freq snap.peq3Gain snap.peq3Q ∧
    slotParam snap cfg 9 = ⟨.lowpass, clampF cfg 0x409F400000000000#64, 0x3FE6666666666666#64, 0#64⟩ ∧
    slotParam snap cfg 10 =
      ⟨.highpass, clampF cfg 0x4072C00000000000#64, 0x3FE6666666666666#64, 0#64⟩ ∧
    (cfg.sr = 0x40E5888000000000#64 ∨ cfg.sr = 0x40E7700000000000#64 →
      fCeil cfg = 0x40D3880000000000#64 ∧
      clampF cfg 0x4054000000000000#64 = 0x4054000000000000#64 ∧
      clampF cfg 0x4069000000000000#64 = 0x4069000000000000#64 ∧
      clampF cfg 0x408F400000000000#64 = 0x408F400000000000#64 ∧
      clampF cfg 0x40AF400000000000#64 = 0x40AF400000000000#64 ∧
      clampF cfg 0x40B7700000000000#64 = 0x40B7700000000000#64 ∧
      clampF cfg 0x409F400000000000#64 = 0x409F400000000000#64 ∧
      clampF cfg 0x4072C00000000000#64 = 0x4072C00000000000#64)

/-- A disabled PEQ gives the coefficients of one whose four gains are 0 dB (45_tonestack_peq_lofi.md
R179), for every frequency and Q. -/
def Obligations.DisabledPeqMatchesZeroGains : Prop :=
  ∀ (snap : Snapshot) (cfg : Cfg),
    snapshotCoefs { snap with peqEnabled := false } cfg =
    snapshotCoefs { snap with
      peqEnabled := true, peq0Gain := Const.zero, peq1Gain := Const.zero, peq2Gain := Const.zero
      peq3Gain := Const.zero } cfg

/-- A slider (45_tonestack_peq_lofi.md R176): its formula at every value, not clamped; 5 is flat, 10 is plus
the range, 0 minus the range; and from 0 to 10 its gain is finite and no larger than the range. -/
def Obligations.SliderEndsAreTheRange : Prop :=
  (∀ v range : NUM, sliderDb v range =
    Fp.mul (Fp.div (Fp.sub v 0x4014000000000000#64) 0x4014000000000000#64) range) ∧
  ∀ range : NUM, nonnegative range = true →
    Fp.isZero (sliderDb 0x4014000000000000#64 range) = true ∧
    sliderDb 0x4024000000000000#64 range = range ∧
    sliderDb 0x0000000000000000#64 range = Fp.neg range ∧
    ∀ v : NUM, Fp.le 0x0000000000000000#64 v = true → Fp.le v 0x4024000000000000#64 = true →
      Fp.finite (sliderDb v range) = true ∧ Fp.le (Fp.abs (sliderDb v range)) range = true

/-- `Resolve` (46_block_processor.md R214, 60_exceptions.md R241, 10_state.md R27): each of the 32 fields is
resolved from its own field of the message and its own default; a present finite NUM field and a present
Bool field are kept, a missing one and a NaN or infinity take the default; every field of the result is
finite; and a message that carries every field of a finite snapshot resolves to that snapshot. -/
def Obligations.ResolveKeepsFiniteFieldsAndDefaultsTheRest : Prop :=
  (∀ m : SettingsMsg, snapshotFinite (resolve m) = true) ∧
  (∀ v default : NUM, resolveNum none default = default ∧
    resolveNum (some v) default = if Fp.finite v then v else default) ∧
  (∀ b default : Bool, resolveBool none default = default ∧ resolveBool (some b) default = b) ∧
  (∀ snap : Snapshot, snapshotFinite snap = true → resolve (fullMessage snap) = snap) ∧
  resolve SettingsMsg.empty = snapshotDefault ∧
  ∀ m : SettingsMsg, resolve m =
      { inputGain := resolveNum m.inputGain 0x3FF0000000000000#64
        inputTrim := resolveNum m.inputTrim 0x3FF0000000000000#64
        drive := resolveNum m.drive 0x0000000000000000#64
        punish := resolveBool m.punish false
        plus10db := resolveBool m.plus10db false
        cleanse := resolveBool m.cleanse false
        thickenEnabled := resolveBool m.thickenEnabled false
        thickenAmount := resolveNum m.thickenAmount 0x0000000000000000#64
        chugEnabled := resolveBool m.chugEnabled false
        chugAmount := resolveNum m.chugAmount 0x0000000000000000#64
        lowBoost := resolveBool m.lowBoost false
        bass := resolveNum m.bass 0x4014000000000000#64
        mid := resolveNum m.mid 0x4014000000000000#64
        treble := resolveNum m.treble 0x4014000000000000#64
        presence := resolveNum m.presence 0x4014000000000000#64
        peqEnabled := resolveBool m.peqEnabled false
        peq0Freq := resolveNum m.peq0Freq 0x4059000000000000#64
        peq0Gain := resolveNum m.peq0Gain 0x0000000000000000#64
        peq0Q := resolveNum m.peq0Q 0x3FF0000000000000#64
        peq1Freq := resolveNum m.peq1Freq 0x407F400000000000#64
        peq1Gain := resolveNum m.peq1Gain 0x0000000000000000#64
        peq1Q := resolveNum m.peq1Q 0x3FF0000000000000#64
        peq2Freq := resolveNum m.peq2Freq 0x409F400000000000#64
        peq2Gain := resolveNum m.peq2Gain 0x0000000000000000#64
        peq2Q := resolveNum m.peq2Q 0x3FF0000000000000#64
        peq3Freq := resolveNum m.peq3Freq 0x40BF400000000000#64
        peq3Gain := resolveNum m.peq3Gain 0x0000000000000000#64
        peq3Q := resolveNum m.peq3Q 0x3FF0000000000000#64
        lofiEnabled := resolveBool m.lofiEnabled false
        outputGain := resolveNum m.outputGain 0x3FF0000000000000#64
        masterVolume := resolveNum m.masterVolume 0x3FF0000000000000#64
        outputTrim := resolveNum m.outputTrim 0x3FF0000000000000#64 }

/-! ## Messages, signals and the boundary -/

/-- `UPDSET` and `SETMUTE` post into their cell of the mailbox and change nothing else
(46_block_processor.md R203, R204, 20_memory.md R55); without a connection they are refused
(60_exceptions.md R255). -/
def Obligations.MessagesArePostedInTheMailbox : Prop :=
  ∀ (s : State) (m : SettingsMsg) (b : Bool),
    (s.conn = true → exec (.updset m) s = .next { s with pendSnap := some m } ∧
      exec (.setmute b) s = .next { s with pendMute := some b }) ∧
    (s.conn = false → exec (.updset m) s = .refused .notConnected ∧
      exec (.setmute b) s = .refused .notConnected)

/-- `CONNECT` (46_block_processor.md R201, 10_state.md R36): every piece of state takes its reset value;
memory, ROMs and the host's pending actions are not the connection's (log 26), `acc` is left open
(log 5), and that no buffer reference is left is the model's choice (log 13): R36 gives them no value. -/
def Obligations.ConnectResetsEverything : Prop :=
  ∀ (cfg : Cfg) (s : State), cfgValid cfg = true → s.chainRom = chainRomWords →
    s.designerRom = designerRomWords →
    ∃ t, exec (.connect cfg) s = .next t ∧ t.conn = true ∧ t.cfg = cfg ∧
      (∀ (c : Chan) (slot : Slot), t.chans[c].fs[slot] = ⟨0#64, 0#64, 0#64, 0#64⟩) ∧
      (∀ c : Chan, t.chans[c].th = ⟨0#64, 0, #v[0#64, 0#64, 0#64, 0#64], 0, 0, 0#64, 0#64, 0#64, 0#64⟩ ∧
        t.chans[c].ch = ⟨0#64⟩) ∧
      t.snap = snapshotDefault ∧ Fp.eq t.amount 0#64 = true ∧
      (∀ slot : Slot, t.coef[slot] =
        slotCoefs snapshotDefault cfg slot (slotParam snapshotDefault cfg slot).type) ∧
      t.muted = false ∧ t.pendSnap = none ∧ t.pendMute = none ∧
      t.run = false ∧ t.cc = 0 ∧ t.nn = 0 ∧ t.spc = 0 ∧
      t.ins = [] ∧ t.outs = #v[0, 0] ∧ t.mem = s.mem ∧ t.chainRom = s.chainRom ∧
      t.designerRom = s.designerRom ∧ t.inbox = s.inbox

/-- `PROCESS` (46_block_processor.md R205, R213, R216, R217): what is pending is applied whole, the mailbox
is emptied, and the block begins at channel 0, frame 0, descriptor 0; nothing else changes (the block's
descriptors are the steps that follow, log 7; its buffers are named by address, log 10). -/
def Obligations.ProcessAppliesWhatIsPendingAndBeginsTheBlock : Prop :=
  ∀ (s : State) (ins : List Nat) (out0 out1 : Nat), s.conn = true → s.run = false →
    s.chainRom = chainRomWords → s.designerRom = designerRomWords →
    buffersDisjoint s.cfg.blockLen ins out0 out1 = true →
    ∃ t, exec (.process ins out0 out1) s = .next t ∧
      t = { s with
        run := true, cc := 0, nn := 0, spc := 0, ins := ins, outs := #v[out0, out1]
        pendSnap := none, pendMute := none
        muted := t.muted, snap := t.snap, amount := t.amount, coef := t.coef } ∧
      t.muted = s.pendMute.getD s.muted ∧
      (s.pendSnap = none → t.snap = s.snap ∧ t.amount = s.amount ∧ t.coef = s.coef) ∧
      ∀ m, s.pendSnap = some m →
        t.snap = resolve m ∧
        t.amount = shapeAmount s.cfg (resolve m).drive (resolve m).punish (resolve m).plus10db ∧
        ∀ slot : Slot, t.coef[slot] =
          slotCoefs (resolve m) s.cfg slot (slotParam (resolve m) s.cfg slot).type

/-- `DISCONNECT` (46_block_processor.md R202, 10_state.md R33): there is no connection any more, so that a
block, a message and a mute are refused (60_exceptions.md R255 (1)); what the connection does not own is
unchanged (log 6). That a
`PROCESS` with another misuse beside names the missing connection is log 30. -/
def Obligations.DisconnectEndsTheConnection : Prop :=
  ∀ s : State, ∃ t, exec .disconnect s = .next t ∧ t.conn = false ∧ t.mem = s.mem ∧
    t.chainRom = s.chainRom ∧ t.designerRom = s.designerRom ∧ t.inbox = s.inbox ∧
    ∀ (ins : List Nat) (out0 out1 : Nat) (m : SettingsMsg) (b : Bool),
      exec (.process ins out0 out1) t = .refused .notConnected ∧
      exec (.updset m) t = .refused .notConnected ∧ exec (.setmute b) t = .refused .notConnected

/-- The refusals of 60_exceptions.md R255 (2) and (3): overlapping buffers (that two output channels that
overlap count as such is log 12), a configuration that breaks 00_scope.md R6, its `ShapeAmount` included
(93_implementation_defined.md U7; how that is known is log 3), and a ROM that holds a reserved descriptor
(that both `CONNECT` and `PROCESS` refuse it is log 17). Buffers overlap iff an output channel shares a byte
with the other or with an input channel, a sample being eight bytes (log 10); R6 is said field by
field. Which reason is named when several apply is log 30. -/
def Obligations.MisuseByTheHostIsRefused : Prop :=
  (∀ (frames : Nat) (ins : List Nat) (out0 out1 : Nat),
    let holds := fun base addr : Nat => base ≤ addr ∧ addr < base + 8 * frames
    buffersDisjoint frames ins out0 out1 = false ↔
      ∃ addr, (holds out0 addr ∧ holds out1 addr) ∨
        ∃ base ∈ ins, holds base addr ∧ (holds out0 addr ∨ holds out1 addr)) ∧
  (∀ cfg : Cfg,
    let above := fun v : NUM => Fp.finite v = true ∧ Fp.lt 0x0000000000000000#64 v = true
    let notBelow := fun v : NUM => Fp.finite v = true ∧ Fp.le 0x0000000000000000#64 v = true
    cfgValid cfg = true ↔ above cfg.sr ∧ 1 ≤ cfg.blockLen ∧ above cfg.kShape ∧
      notBelow cfg.rangeBass ∧ notBelow cfg.rangeMid ∧ notBelow cfg.rangeTreble ∧
      notBelow cfg.rangePresence ∧ above cfg.qMid ∧ cfg.shapeMeetsR6 = true) ∧
  (∀ (s : State) (ins : List Nat) (out0 out1 : Nat), s.conn = true → s.run = false →
    buffersDisjoint s.cfg.blockLen ins out0 out1 = false →
    exec (.process ins out0 out1) s = .refused .buffersOverlap) ∧
  (∀ (s : State) (cfg : Cfg), cfgValid cfg = false ∨ cfg.shapeMeetsR6 = false →
    exec (.connect cfg) s = .refused .badConfiguration) ∧
  (∀ (s : State) (w : Word16), w ∈ s.chainRom ∨ w ∈ s.designerRom → ¬ legalDescriptor w →
    (∀ cfg, cfgValid cfg = true → exec (.connect cfg) s = .refused .reservedDescriptor) ∧
    (∀ ins out0 out1, s.conn = true → s.run = false →
      buffersDisjoint s.cfg.blockLen ins out0 out1 = true →
      exec (.process ins out0 out1) s = .refused .reservedDescriptor))

/-- The mailbox is as strong as an in-order queue (20_memory.md R56): posting any messages and applying what
the two cells hold leaves the state that applying every message in order leaves. -/
def Obligations.MailboxIsEquivalentToAQueue : Prop :=
  ∀ (messages : List (SettingsMsg ⊕ Bool)) (s : State), s.designerRom = designerRomWords →
    s.pendSnap = none → s.pendMute = none →
    boundary (postAll messages s) = applyAll messages s

/-- R218: a snapshot and a mute pending together are both applied, and either order gives the same state,
whatever ROM the designer pass runs. -/
def Obligations.SnapshotAndMuteCommute : Prop :=
  (∀ (s : State) (m : SettingsMsg) (b : Bool), s.pendSnap = some m → s.pendMute = some b →
    boundary s = (applySnapshot (resolve m) s).map (fun t =>
      { t with muted := b, pendSnap := none, pendMute := none })) ∧
  ∀ (s : State) (snap : Snapshot) (b : Bool),
    (applySnapshot snap s).map (applyMute (some b)) = applySnapshot snap (applyMute (some b) s)

/-! ## What instructions leave alone -/

/-- The enable predicates (30_encoding.md R74, 10_state.md R30), and that a stage whose predicate is false
does nothing but move `spc` (46_block_processor.md R207). A descriptor other than END goes on, moves `spc` by one (10_state.md R31) and leaves alone the
connection, the configuration, SNAP, AMOUNT, MUTED, the mailbox, the sequencer, the buffers' places, the
ROMs, the host's actions and the other channel's bundle (46_block_processor.md R206); COEF unless it is a
DSGN; `acc` and the current bundle if it is one; every byte of memory unless it is STOUT. -/
def Obligations.DescriptorsLeaveTheRestAlone : Prop :=
  (∀ snap : Snapshot, predHolds snap .always = true ∧
    (predHolds snap .ncl = true ↔ snap.cleanse = false) ∧
    (predHolds snap .thk = true ↔ snap.thickenEnabled = true) ∧
    (predHolds snap .chg = true ↔ snap.chugEnabled = true) ∧
    (predHolds snap .lofi = true ↔ snap.lofiEnabled = true)) ∧
  (∀ (i : Instr) (p : Pred) (s : State), stagePred i = some p → predHolds s.snap p = false →
    exec i s = .next { s with spc := s.spc + 1 }) ∧
  ∀ (i : Instr) (s : State), advances i = true →
    ∃ t, exec i s = .next t ∧ t.spc = s.spc + 1 ∧ t.conn = s.conn ∧ t.cfg = s.cfg ∧ t.snap = s.snap ∧
      t.amount = s.amount ∧ t.muted = s.muted ∧ t.pendSnap = s.pendSnap ∧ t.pendMute = s.pendMute ∧
      t.run = s.run ∧ t.cc = s.cc ∧ t.nn = s.nn ∧ t.ins = s.ins ∧ t.outs = s.outs ∧
      t.chainRom = s.chainRom ∧ t.designerRom = s.designerRom ∧ t.inbox = s.inbox ∧ t.free = s.free ∧
      (∀ c : Chan, c ≠ s.cc → t.chans[c] = s.chans[c]) ∧
      ((stagePred i).isSome = true → t.coef = s.coef) ∧
      ((designOf i).isSome = true → t.acc = s.acc ∧ t.chans = s.chans) ∧
      ((∀ p, i ≠ .stout p) → ∀ addr, readByte t.mem addr = readByte s.mem addr)

/-- Who writes the state files, over all instructions: FS only BQ (41_biquad.md R124), trackers only THICK
and CHUG (10_state.md R25, R26), COEF only DSGN and an applied snapshot (R23), SNAP, AMOUNT and MUTED only
the boundary (R27, R28, R29), CFG nothing (00_scope.md R6), and CONNECT and DISCONNECT all of them. -/
def Obligations.StateFilesAreWrittenByTheirOwnersOnly : Prop :=
  ∀ (i : Instr) (s t : State), exec i s = .next t → (∀ cfg, i ≠ .connect cfg) → i ≠ .disconnect →
    t.cfg = s.cfg ∧ t.chainRom = s.chainRom ∧ t.designerRom = s.designerRom ∧
    ((∀ slot p, i ≠ .bq slot p) → ∀ (c : Chan) (slot : Slot), t.chans[c].fs[slot] = s.chans[c].fs[slot]) ∧
    ((∀ p, i ≠ .thick p) → ∀ c : Chan, t.chans[c].th = s.chans[c].th) ∧
    ((∀ p, i ≠ .chug p) → ∀ c : Chan, t.chans[c].ch = s.chans[c].ch) ∧
    ((∀ ins out0 out1, i ≠ .process ins out0 out1) →
      t.snap = s.snap ∧ t.amount = s.amount ∧ t.muted = s.muted ∧
      ((designOf i).isSome = false → t.coef = s.coef))

/-- A descriptor neither reads nor writes the other channel's bundle (46_block_processor.md R206, R219):
replacing it before or after is the same. -/
def Obligations.OtherChannelIsInvisible : Prop :=
  ∀ (i : Instr) (s t : State) (c : Chan) (b : Channel), (advances i = true ∨ i = .endPass) → c ≠ s.cc →
    exec i s = .next t →
    exec i { s with chans := s.chans.set c.val b c.isLt } =
      .next { t with chans := t.chans.set c.val b c.isLt }

/-! ## Stages over all values -/

/-- R125: zero in, zero state, zero out; a case where the zero is negative; and `-0 = +0`. -/
def Obligations.SilentBiquadStaysSilent : Prop :=
  (∀ (k : Coefs) (f : FilterState) (x : NUM), coefsFinite k = true → filterSilent f = true →
    Fp.isZero x = true →
    Fp.isZero (biquadOut k f x) = true ∧ filterSilent (biquadShift f x (biquadOut k f x)) = true) ∧
  ∃ (k : Coefs) (f : FilterState) (x : NUM), coefsFinite k = true ∧ filterSilent f = true ∧
    x = 0x0000000000000000#64 ∧ Fp.lt k.b0 x = true ∧ biquadOut k f x = 0x8000000000000000#64 ∧
    Fp.eq 0x8000000000000000#64 0x0000000000000000#64 = true

/-- R122: a NaN among the input, the state and the coefficients gives a NaN, stored in `y1`; from then on
every output of the slot is NaN, whatever the inputs and coefficients that follow. -/
def Obligations.NaNIsStickyInABiquad : Prop :=
  ∀ (k : Coefs) (f : FilterState) (x : NUM),
    [x, f.x1, f.x2, f.y1, f.y2, k.b0, k.b1, k.b2, k.a1, k.a2].any Fp.isNaN = true →
    Fp.isNaN (biquadOut k f x) = true ∧ (biquadShift f x (biquadOut k f x)).y1 = biquadOut k f x ∧
    ∀ later : List (Coefs × NUM), ∀ y ∈ (biquadRun (biquadShift f x (biquadOut k f x)) later).1,
      Fp.isNaN y = true

/-- R132: with amount 0, of either sign, the shaper is the identity, bit for bit, for every sample; with
amount NaN it is NaN. -/
def Obligations.ShaperBypassesAtAmountZero : Prop :=
  ∀ k x a : NUM, (Fp.isZero a = true → shaper k x a = x) ∧
    (Fp.isNaN a = true → Fp.isNaN (shaper k x a) = true)

/-- What 00_scope.md R6 asks of `ShapeAmount` in a valid configuration; and with the drive settings at their
origin the distortion stage is the identity (42_shaper.md R136): the snapshot applied, `SHAPE` changes
nothing but `spc`. That `drive = 0` means `+0.0` is log 29. -/
def Obligations.NoDriveMeansNoShaping : Prop :=
  (∀ (cfg : Cfg) (drive : NUM) (punish plus10db : Bool), cfgValid cfg = true →
    nonnegative (shapeAmount cfg drive punish plus10db) = true ∧
    Fp.eq (shapeAmount cfg Const.zero false false) Const.zero = true) ∧
  ∀ (p : Pred) (s t : State) (snap : Snapshot), cfgValid s.cfg = true → snap.drive = Const.zero →
    snap.punish = false → snap.plus10db = false → s.designerRom = designerRomWords →
    applySnapshot snap s = .ok t →
    exec (.shape p) t = .next { t with spc := t.spc + 1 }

/-- The shaper is odd (42_shaper.md R133), bit for bit, wherever its result is no NaN. -/
def Obligations.ShaperIsOdd : Prop :=
  ∀ k x a : NUM, Fp.isNaN (shaper k x a) = false → shaper k (Fp.neg x) a = Fp.neg (shaper k x a)

/-- Chug with amount 0 leaves every finite sample as it was (44_chug.md R163), for an envelope that is not
negative. -/
def Obligations.ChugWithAmountZeroIsTheIdentity : Prop :=
  ∀ (t : ChugTracker) (amount x : NUM), Fp.isZero amount = true → Fp.finite x = true →
    Fp.le Const.zero t.env = true → chugOut t amount x = x

/-- The candidate window is `[40, 1500)` in samples, for every count (43_thicken.md R143; log 20 for counts
a NUM cannot hold exactly). -/
def Obligations.CandidateWindowIsFortyToFifteenHundred : Prop :=
  ∀ n : Nat, periodAccepted (Fp.ofNat n) = true ↔ 40 ≤ n ∧ n < 1500

/-- The sub-gain never leaves `[0, 1]` (10_state.md R25, 43_thicken.md R149, R154), for every sample, NaN
included. -/
def Obligations.SubGainStaysInTheUnitInterval : Prop :=
  ∀ (t : ThickenTracker) (x : NUM), unitInterval t.sub = true → unitInterval (thickenStep t x).sub = true

/-- One subtraction keeps the phase in `[0, 2 PI)` for every period of the candidate window
(43_thicken.md R149). -/
def Obligations.PhaseWrapsIntoOneTurn : Prop :=
  ∀ phase locked : NUM, Fp.le Const.zero phase = true → Fp.lt phase twoPi = true →
    Fp.le Const.forty locked = true → Fp.lt locked Const.thPmax = true →
    Fp.le Const.zero (advancePhase phase locked) = true ∧ Fp.lt (advancePhase phase locked) twoPi = true

/-- The tracker's invariants (43_thicken.md R154): they hold at reset, and one executed `THICK` keeps them
for every sample that is not NaN. -/
def Obligations.ThickenKeepsItsTrackerInvariants : Prop :=
  TrackerOk thickenReset ∧
  ∀ (t : ThickenTracker) (x : NUM), TrackerOk t → Fp.isNaN x = false → TrackerOk (thickenStep t x)

/-! ## The number system -/

/-- Rounding (00_scope.md R8): a finite answer is nearest to the exact value `±n / 2^k` units of 2^-1074
among all finite NUMs, and at a tie its significand is even. -/
def Obligations.RoundingIsToNearestTiesToEven : Prop :=
  ∀ (neg : Bool) (n k : Nat) (y : NUM), Fp.finite (Fp.round neg n k) = true → Fp.finite y = true →
    let v : Int := if neg then -(n : Int) else n
    let r := Fp.round neg n k
    |Fp.value r * 2 ^ k - v| ≤ |Fp.value y * 2 ^ k - v| ∧
    (|Fp.value r * 2 ^ k - v| = |Fp.value y * 2 ^ k - v| →
      Fp.value y = Fp.value r ∨ Fp.frac r % 2 = 0)

/-- Overflow (00_scope.md R8): the answer is an infinity exactly from half a unit above the largest finite
NUM on, and it has the sign of the exact value. -/
def Obligations.RoundingOverflowsToInfinity : Prop :=
  ∀ (neg : Bool) (n k : Nat),
    (Fp.finite (Fp.round neg n k) = false ↔ (2 ^ 54 - 1) * 2 ^ 2044 * 2 ^ k ≤ n) ∧
    (Fp.finite (Fp.round neg n k) = false → Fp.round neg n k = Fp.inf neg) ∧
    Fp.sign (Fp.round neg n k) = neg

/-- Division (00_scope.md R8) of finite operands by one that is not zero; the exact quotient is
`value a * 2^1074 / value b` units of 2^-1074. The quotient is finite exactly below half a unit above the
largest finite NUM, else an infinity; its sign is the operands'; and a finite one is nearest among all
finite NUMs, with an even significand at a tie. -/
def Obligations.DivisionIsCorrectlyRounded : Prop :=
  ∀ a b : NUM, Fp.finite a = true → Fp.finite b = true → Fp.isZero b = false →
    (Fp.finite (Fp.div a b) = true ↔
      |Fp.value a| * 2 ^ 1074 < (2 ^ 54 - 1) * 2 ^ 2044 * |Fp.value b|) ∧
    (Fp.finite (Fp.div a b) = false → Fp.div a b = Fp.inf (Fp.sign a != Fp.sign b)) ∧
    Fp.sign (Fp.div a b) = (Fp.sign a != Fp.sign b) ∧
    (Fp.finite (Fp.div a b) = true → ∀ y : NUM, Fp.finite y = true →
      |Fp.value (Fp.div a b) * Fp.value b - Fp.value a * 2 ^ 1074| ≤
        |Fp.value y * Fp.value b - Fp.value a * 2 ^ 1074| ∧
      (|Fp.value (Fp.div a b) * Fp.value b - Fp.value a * 2 ^ 1074| =
        |Fp.value y * Fp.value b - Fp.value a * 2 ^ 1074| →
        Fp.value y = Fp.value (Fp.div a b) ∨ Fp.frac (Fp.div a b) % 2 = 0))

/-- `Sqrt` (00_scope.md R10): the root of a finite value that is not negative is finite and a nearest NUM to
the exact root, which is `√(value x * 2^1074)` units of 2^-1074. -/
def Obligations.SquareRootIsCorrectlyRounded : Prop :=
  ∀ x y : NUM, Fp.finite x = true → 0 ≤ Fp.value x → Fp.finite y = true →
    Fp.finite (Fp.sqrt x) = true ∧
    |(Fp.value (Fp.sqrt x) : ℝ) - Real.sqrt ((Fp.value x : ℝ) * 2 ^ 1074)| ≤
      |(Fp.value y : ℝ) - Real.sqrt ((Fp.value x : ℝ) * 2 ^ 1074)|

/-- The comparisons of finite operands are those of their values (00_scope.md R11), and any comparison
with a NaN is false. -/
def Obligations.ComparisonsFollowTheValues : Prop :=
  ∀ a b : NUM,
    (Fp.finite a = true → Fp.finite b = true →
      (Fp.lt a b = true ↔ Fp.value a < Fp.value b) ∧ (Fp.le a b = true ↔ Fp.value a ≤ Fp.value b) ∧
      (Fp.eq a b = true ↔ Fp.value a = Fp.value b)) ∧
    (Fp.isNaN a = true ∨ Fp.isNaN b = true →
      Fp.lt a b = false ∧ Fp.le a b = false ∧ Fp.eq a b = false)

/-! ## The whole machine -/

/-- The reset state meets the machine's invariant. It rests on the reset configuration of log 4. -/
def Obligations.ResetMeetsTheInvariant : Prop := Invariant State.reset

/-- Every step keeps the invariant: canonical memory, unwritten ROMs, and while there is a connection a
valid configuration, a finite snapshot, an AMOUNT the shaper admits, sequencer counters in range and
trackers whose lock has a full ring (10_state.md R27, R31, 20_memory.md R62, 43_thicken.md R154). -/
def Obligations.EveryStepKeepsTheInvariant : Prop :=
  ∀ s t : State, Invariant s → step s = .next t → Invariant t

/-- Inside a block no step is refused (60_exceptions.md R240). -/
def Obligations.NoStepOfABlockIsRefused : Prop :=
  ∀ s : State, Invariant s → s.conn = true → s.run = true → goesOn (step s)

/-- `PROCESS` completes (46_block_processor.md R205, R240): from between blocks, one step for the signal and
twenty for each frame of each channel end the block, with the mailbox empty, the sequencer at rest, the
host's other actions still waiting, and no byte written outside the two output channels. The number of
steps is that of log 7's level, the bytes of an output channel are log 10's layout. -/
def Obligations.BlockRunsToItsEnd : Prop :=
  ∀ (s : State) (ins : List Nat) (out0 out1 : Nat) (rest : List HostAction), Invariant s →
    s.conn = true → s.run = false → s.inbox = .signal (.process ins out0 out1) :: rest →
    buffersDisjoint s.cfg.blockLen ins out0 out1 = true →
    ∃ t, stepN (1 + 40 * s.cfg.blockLen) s = .next t ∧ t.conn = true ∧ t.run = false ∧
      t.cc = 0 ∧ t.nn = 0 ∧ t.spc = 0 ∧ t.pendSnap = none ∧ t.pendMute = none ∧ t.inbox = rest ∧
      ∀ addr, (addr < out0 ∨ out0 + 8 * s.cfg.blockLen ≤ addr) →
        (addr < out1 ∨ out1 + 8 * s.cfg.blockLen ≤ addr) →
        readByte t.mem addr = readByte s.mem addr

/-- Mute is absolute (46_block_processor.md R221): after a block that began muted, every sample of both
output channels is `+0.0`, whatever the input, the settings and the state. The number of steps is that of
log 7's level, the place of a sample is log 10's. -/
def Obligations.MutedBlockWritesOnlyZeros : Prop :=
  ∀ (s : State) (ins : List Nat) (out0 out1 : Nat) (rest : List HostAction), Invariant s →
    s.conn = true → s.run = false → s.inbox = .signal (.process ins out0 out1) :: rest →
    buffersDisjoint s.cfg.blockLen ins out0 out1 = true → s.pendMute.getD s.muted = true →
    ∃ t, stepN (1 + 40 * s.cfg.blockLen) s = .next t ∧
      ∀ n, n < s.cfg.blockLen →
        readNum t.mem (out0 + 8 * n) = 0#64 ∧ readNum t.mem (out1 + 8 * n) = 0#64

/-- Silence (46_block_processor.md R222): a stage descriptor or END of a silent block keeps it silent, and
what STOUT writes is a zero. `Sin` of the phase is assumed finite where THICK runs (00_scope.md R10). -/
def Obligations.SilenceStaysSilent : Prop :=
  ∀ (i : Instr) (s : State), ((stagePred i).isSome = true ∨ i = .endPass) → s.run = true → Silent s →
    (∀ p, i = .thick p → predHolds s.snap p = true →
      Fp.finite (Config.sin s.cfg.fns s.chans[s.cc].th.phase) = true) →
    ∃ t, exec i s = .next t ∧ Silent t ∧
      ∀ p, i = .stout p → predHolds s.snap p = true →
        Fp.isZero (readNum t.mem (sampleAddr s.outs[s.cc] s.nn)) = true
end

