-- ==== Sys2Proof/Laws/Float.lean ====
section
/-! SUPPORT. First laws of the number system: what an answer's fields are, what a NaN operand does, and the
order of comparison. -/

namespace Sys2Proof

/-- The NaN an operation answers has an all-ones exponent. -/
@[simp] theorem Fp.expo_nan (op : FpOp) (a b : NUM) : Fp.expo (Fp.nan op a b) = 2047 := by
  have h : (Fp.nan op a b).extractLsb' 52 11 = 0x7FF#11 := by
    unfold Fp.nan
    apply BitVec.eq_of_getLsbD_eq
    intro i hi
    simp only [BitVec.getLsbD_extractLsb', BitVec.getLsbD_append]
    interval_cases i <;> simp
  unfold Fp.expo
  rw [h]
  rfl

/-- The NaN an operation answers is quiet: its top fraction bit is set. -/
theorem Fp.quiet_nan (op : FpOp) (a b : NUM) : (Fp.nan op a b).getLsbD 51 = true := by
  simp only [Fp.nan, BitVec.getLsbD_append]
  rw [if_pos (by omega), if_neg (by omega)]
  decide

@[simp] theorem Fp.isNaN_nan (op : FpOp) (a b : NUM) : Fp.isNaN (Fp.nan op a b) = true := by
  have hq := Fp.quiet_nan op a b
  have hf : Fp.frac (Fp.nan op a b) ≠ 0 := by
    intro h0
    have hz : (Fp.nan op a b).extractLsb' 0 52 = 0#52 := by
      apply BitVec.eq_of_toNat_eq
      simpa [Fp.frac] using h0
    have hb := congrArg (fun v : BitVec 52 => v.getLsbD 51) hz
    simp only [BitVec.getLsbD_extractLsb'] at hb
    exact absurd hq (by simpa using hb)
  simp [Fp.isNaN, hf]

@[simp] theorem Fp.finite_nan (op : FpOp) (a b : NUM) : Fp.finite (Fp.nan op a b) = false := by
  simp [Fp.finite]

/-- A NaN is not finite. -/
theorem Fp.finite_of_isNaN {x : NUM} (h : Fp.isNaN x = true) : Fp.finite x = false := by
  simp only [Fp.isNaN, Bool.and_eq_true, beq_iff_eq] at h
  simp [Fp.finite, h.1]

/-- A finite value is no NaN. -/
theorem Fp.isNaN_of_finite {x : NUM} (h : Fp.finite x = true) : Fp.isNaN x = false := by
  by_contra hn
  rw [Bool.not_eq_false] at hn
  rw [Fp.finite_of_isNaN hn] at h
  exact Bool.false_ne_true h

/-- A finite value is no infinity. -/
theorem Fp.isInf_of_finite {x : NUM} (h : Fp.finite x = true) : Fp.isInf x = false := by
  simp only [Fp.finite, bne_iff_ne] at h
  simp [Fp.isInf, h]

theorem Fp.add_of_nan {a b : NUM} (h : Fp.isNaN a = true ∨ Fp.isNaN b = true) :
    Fp.add a b = Fp.nan .add a b := by
  unfold Fp.add
  rw [if_pos (by simpa using h)]

theorem Fp.sub_of_nan {a b : NUM} (h : Fp.isNaN a = true ∨ Fp.isNaN b = true) :
    Fp.sub a b = Fp.nan .sub a b := by
  unfold Fp.sub
  rw [if_pos (by simpa using h)]

theorem Fp.mul_of_nan {a b : NUM} (h : Fp.isNaN a = true ∨ Fp.isNaN b = true) :
    Fp.mul a b = Fp.nan .mul a b := by
  unfold Fp.mul
  rw [if_pos (by simpa using h)]

theorem Fp.div_of_nan {a b : NUM} (h : Fp.isNaN a = true ∨ Fp.isNaN b = true) :
    Fp.div a b = Fp.nan .div a b := by
  unfold Fp.div
  rw [if_pos (by simpa using h)]

/-- A finite sum is the exact sum rounded once (00_scope.md R8). -/
theorem Fp.add_of_finite {a b : NUM} (ha : Fp.finite a = true) (hb : Fp.finite b = true)
    (hv : Fp.value a + Fp.value b ≠ 0) :
    Fp.add a b =
      Fp.round (decide (Fp.value a + Fp.value b < 0)) (Fp.value a + Fp.value b).natAbs 0 := by
  simp [Fp.add, Fp.addCore, Fp.isNaN_of_finite ha, Fp.isNaN_of_finite hb, Fp.isInf_of_finite ha,
    Fp.isInf_of_finite hb, hv]

/-- A finite product is the exact product rounded once (00_scope.md R8). -/
theorem Fp.mul_of_finite {a b : NUM} (ha : Fp.finite a = true) (hb : Fp.finite b = true) :
    Fp.mul a b = Fp.round (Fp.sign a != Fp.sign b) (Fp.units a * Fp.units b) 1074 := by
  simp [Fp.mul, Fp.isNaN_of_finite ha, Fp.isNaN_of_finite hb, Fp.isInf_of_finite ha,
    Fp.isInf_of_finite hb]

/-- What the comparisons say, once. -/
theorem Fp.lt_iff (a b : NUM) :
    Fp.lt a b = true ↔ Fp.isNaN a = false ∧ Fp.isNaN b = false ∧ Fp.ord a < Fp.ord b := by
  simp [Fp.lt, and_assoc]

theorem Fp.le_iff (a b : NUM) :
    Fp.le a b = true ↔ Fp.isNaN a = false ∧ Fp.isNaN b = false ∧ Fp.ord a ≤ Fp.ord b := by
  simp [Fp.le, and_assoc]

theorem Fp.eq_iff (a b : NUM) :
    Fp.eq a b = true ↔ Fp.isNaN a = false ∧ Fp.isNaN b = false ∧ Fp.ord a = Fp.ord b := by
  simp [Fp.eq, and_assoc]

/-- `Max` of two values that are not NaN is one of them and not below either. -/
theorem Fp.max_cases {a b : NUM} (ha : Fp.isNaN a = false) (hb : Fp.isNaN b = false) :
    (Fp.max a b = a ∧ Fp.ord b ≤ Fp.ord a) ∨ (Fp.max a b = b ∧ Fp.ord a ≤ Fp.ord b) := by
  unfold Fp.max
  rw [if_neg (by simp [ha, hb])]
  split_ifs with h1 h2 h3
  · exact .inr ⟨rfl, Int.le_of_lt h1⟩
  · exact .inl ⟨rfl, Int.le_of_lt h2⟩
  · exact .inr ⟨rfl, by omega⟩
  · exact .inl ⟨rfl, by omega⟩

/-- `Min` of two values that are not NaN is one of them and not above either. -/
theorem Fp.min_cases {a b : NUM} (ha : Fp.isNaN a = false) (hb : Fp.isNaN b = false) :
    (Fp.min a b = a ∧ Fp.ord a ≤ Fp.ord b) ∨ (Fp.min a b = b ∧ Fp.ord b ≤ Fp.ord a) := by
  unfold Fp.min
  rw [if_neg (by simp [ha, hb])]
  split_ifs with h1 h2 h3
  · exact .inl ⟨rfl, Int.le_of_lt h1⟩
  · exact .inr ⟨rfl, Int.le_of_lt h2⟩
  · exact .inl ⟨rfl, by omega⟩
  · exact .inr ⟨rfl, by omega⟩

end Sys2Proof

namespace Sys2Proof.Machine

theorem nonnegative_of_isZero {v : NUM} (h : Fp.isZero v = true) : nonnegative v = true := by
  simp only [Fp.isZero, Bool.and_eq_true, beq_iff_eq] at h
  have hN : Fp.isNaN v = false := by simp [Fp.isNaN, h.1]
  have hz : (v.extractLsb' 0 63).toNat = 0 := by
    have he : (v.extractLsb' 52 11) = 0#11 := BitVec.eq_of_toNat_eq (by simpa [Fp.expo] using h.1)
    have hf : (v.extractLsb' 0 52) = 0#52 := BitVec.eq_of_toNat_eq (by simpa [Fp.frac] using h.2)
    have : v.extractLsb' 0 63 = v.extractLsb' 52 11 ++ v.extractLsb' 0 52 := by
      apply BitVec.eq_of_getLsbD_eq
      intro i hi
      simp only [BitVec.getLsbD_append, BitVec.getLsbD_extractLsb']
      split
      · simp only [*, decide_true, Bool.true_and, Nat.zero_add]
      · next hge =>
        have : 52 + (i - 52) = i := by omega
        simp [this, hi]
        omega
    rw [this, he, hf]
    rfl
  have ho : Fp.ord v = 0 := by simp [Fp.ord, hz]
  have hle : Fp.le Const.zero v = true := by
    rw [Fp.le_iff]
    exact ⟨by decide, hN, by rw [ho]; decide⟩
  simp [nonnegative, hle, Fp.finite, h.1]

/-- Of a configuration that meets R6, every result of `ShapeAmount` is one R6 admits. -/
theorem shapeAmount_admitted {c : Cfg} (h : c.shapeMeetsR6 = true) (drive : NUM)
    (punish plus10db : Bool) :
    shapeAmountAdmits drive punish plus10db (shapeAmount c drive punish plus10db) = true := by
  unfold shapeAmount
  simp only [h, Bool.true_and]
  split
  · have hn : nonnegative Const.zero = true := by decide
    have hz : Fp.isZero Const.zero = true := by decide
    simp [shapeAmountAdmits, hn, hz]
  · next hr => simpa using hr

/-- `ShapeAmount` meets R6 everywhere: its result is finite and `>= 0`. -/
theorem shapeAmount_nonnegative {c : Cfg} (h : c.shapeMeetsR6 = true) (drive : NUM)
    (punish plus10db : Bool) : nonnegative (shapeAmount c drive punish plus10db) = true := by
  have ha := shapeAmount_admitted h drive punish plus10db
  rw [shapeAmountAdmits, Bool.and_eq_true] at ha
  exact ha.1

/-- `ShapeAmount` meets R6 at the origin: its result is a zero. -/
theorem shapeAmount_origin {c : Cfg} (h : c.shapeMeetsR6 = true) :
    Fp.isZero (shapeAmount c Const.zero false false) = true := by
  have ha := shapeAmount_admitted h Const.zero false false
  simpa [shapeAmountAdmits] using (Bool.and_eq_true _ _ ▸ ha).2

/-- A configuration that meets R6 has a `ShapeAmount` that does. -/
theorem cfgValid_shape {c : Cfg} (h : cfgValid c = true) : c.shapeMeetsR6 = true := by
  simp only [cfgValid, Bool.and_eq_true] at h
  exact h.2

theorem positive_asPositive (v : NUM) : positive (asPositive v) = true := by
  unfold asPositive
  split
  · assumption
  · decide

theorem nonnegative_asNonnegative (v : NUM) : nonnegative (asNonnegative v) = true := by
  unfold asNonnegative
  split
  · assumption
  · decide

/-- The reset configuration meets R6. -/
theorem cfgValid_resetCfg : cfgValid resetCfg = true := by
  have hsr : positive resetCfg.sr = true := by decide
  have hbl : decide (1 ≤ resetCfg.blockLen) = true := by decide
  simp only [cfgValid, hsr, hbl, Bool.true_and]
  simp [resetCfg, positive_asPositive, nonnegative_asNonnegative]

end Sys2Proof.Machine
end

