-- ==== Sys2Proof/Laws/Memory.lean ====
section
/-! SUPPORT. The laws of memory: a byte read after a byte written, a NUM read after a NUM written, every
other address untouched, and the canonical form kept. -/

namespace Sys2Proof.Machine

@[simp] theorem readByte_nil (addr : Nat) : readByte [] addr = unlistedByte := rfl

theorem readByte_cons (a : Nat) (b : BitVec 8) (rest : Memory) (addr : Nat) :
    readByte ((a, b) :: rest) addr = if addr = a then b else readByte rest addr := rfl

/-- Reading past a byte put in front, or it, when the cells behind do not list its address. -/
theorem readByte_consByte (a : Nat) (b : BitVec 8) (m : Memory) (addr : Nat)
    (h : addr = a → readByte m a = unlistedByte) :
    readByte (consByte a b m) addr = if addr = a then b else readByte m addr := by
  unfold consByte
  split
  · next hb =>
    split
    · next he => subst he; rw [h rfl, hb]
    · rfl
  · rfl

/-- A low bound may be lowered. -/
theorem memWfAbove_mono {low low' : Option Nat} {m : Memory}
    (hle : ∀ l, low' = some l → ∃ k, low = some k ∧ l ≤ k) (h : memWfAbove low m = true) :
    memWfAbove low' m = true := by
  cases m with
  | nil => rfl
  | cons c rest =>
    obtain ⟨a, b⟩ := c
    simp only [memWfAbove, Bool.and_eq_true] at h ⊢
    refine ⟨⟨?_, h.1.2⟩, h.2⟩
    cases low' with
    | none => rfl
    | some l =>
      obtain ⟨k, rfl, hlk⟩ := hle l rfl
      have := h.1.1
      simp only [decide_eq_true_eq] at this ⊢
      omega

/-- Below or at a bound nothing is listed. -/
theorem readByte_of_le {l : Nat} {m : Memory} (h : memWfAbove (some l) m = true) {addr : Nat}
    (hle : addr ≤ l) : readByte m addr = unlistedByte := by
  induction m generalizing l with
  | nil => rfl
  | cons c rest ih =>
    obtain ⟨a, b⟩ := c
    simp only [memWfAbove, Bool.and_eq_true, decide_eq_true_eq] at h
    rw [readByte_cons, if_neg (by omega)]
    exact ih h.2 (by omega)

theorem memWfAbove_consByte {low : Option Nat} {a : Nat} {b : BitVec 8} {m : Memory}
    (hlow : ∀ l, low = some l → l < a) (h : memWfAbove (some a) m = true) :
    memWfAbove low (consByte a b m) = true := by
  unfold consByte
  split
  · refine memWfAbove_mono (fun l hl => ⟨a, rfl, ?_⟩) h
    exact Nat.le_of_lt (hlow l hl)
  · next hb =>
    simp only [memWfAbove, Bool.and_eq_true]
    refine ⟨⟨?_, by simpa using hb⟩, h⟩
    cases low with
    | none => rfl
    | some l => simpa using hlow l rfl

theorem memWfAbove_writeByte {low : Option Nat} {m : Memory} (h : memWfAbove low m = true)
    {addr : Nat} (hlow : ∀ l, low = some l → l < addr) (byte : BitVec 8) :
    memWfAbove low (writeByte m addr byte) = true := by
  induction m generalizing low with
  | nil => exact memWfAbove_consByte hlow rfl
  | cons c rest ih =>
    obtain ⟨a, b⟩ := c
    have h' := h
    simp only [memWfAbove, Bool.and_eq_true] at h'
    unfold writeByte
    split
    · next hlt =>
      refine memWfAbove_consByte hlow ?_
      simp only [memWfAbove, Bool.and_eq_true]
      exact ⟨⟨by simpa using hlt, h'.1.2⟩, h'.2⟩
    · split
      · next heq => subst heq; exact memWfAbove_consByte hlow h'.2
      · next hnlt hne =>
        simp only [memWfAbove, Bool.and_eq_true]
        refine ⟨h'.1, ih h'.2 ?_⟩
        rintro l ⟨⟩
        omega

/-- Storing a byte keeps the canonical form. -/
theorem writeByte_wf {m : Memory} (h : m.wf = true) (addr : Nat) (byte : BitVec 8) :
    Memory.wf (writeByte m addr byte) = true :=
  memWfAbove_writeByte h (by simp) byte

theorem readByte_writeByte_above {low : Option Nat} {m : Memory} (h : memWfAbove low m = true)
    (addr : Nat) (byte : BitVec 8) (at' : Nat) :
    readByte (writeByte m addr byte) at' = if at' = addr then byte else readByte m at' := by
  induction m generalizing low with
  | nil => exact readByte_consByte addr byte [] at' (fun _ => rfl)
  | cons c rest ih =>
    obtain ⟨a, b⟩ := c
    have h' := h
    simp only [memWfAbove, Bool.and_eq_true] at h'
    unfold writeByte
    split
    · next hlt =>
      refine readByte_consByte addr byte _ at' (fun _ => ?_)
      rw [readByte_cons, if_neg (by omega)]
      exact readByte_of_le h'.2 (by omega)
    · split
      · next heq =>
        subst heq
        rw [readByte_consByte addr byte rest at' (fun _ => readByte_of_le h'.2 (Nat.le_refl _)),
          readByte_cons]
        split <;> rfl
      · next hnlt hne =>
        rw [readByte_cons, ih h'.2, readByte_cons]
        by_cases h1 : at' = a
        · rw [if_pos h1, if_pos h1, if_neg (by omega)]
        · rw [if_neg h1, if_neg h1]

/-- A byte read after a byte stored: the stored one at its address, the old one elsewhere. -/
theorem readByte_writeByte {m : Memory} (h : m.wf = true) (addr : Nat) (byte : BitVec 8)
    (at' : Nat) :
    readByte (writeByte m addr byte) at' = if at' = addr then byte else readByte m at' :=
  readByte_writeByte_above h addr byte at'

theorem writeBytes_wf {m : Memory} (h : m.wf = true) (addr : Nat) (v : NUM) (count : Nat) :
    Memory.wf (writeBytes m addr v count) = true := by
  induction count with
  | zero => exact h
  | succ count ih => exact writeByte_wf ih _ _

/-- Storing a NUM keeps the canonical form. -/
theorem writeNum_wf {m : Memory} (h : m.wf = true) (addr : Nat) (v : NUM) :
    Memory.wf (writeNum m addr v) = true := writeBytes_wf h addr v 8

/-- Storing samples keeps the canonical form. -/
theorem writeSamples_wf {m : Memory} (h : m.wf = true) (base : Nat) (samples : List NUM) :
    Memory.wf (writeSamples m base samples) = true := by
  induction samples generalizing m base with
  | nil => exact h
  | cons v rest ih => exact ih (writeNum_wf h base v) (base + 8)

/-- A byte read after bytes stored. -/
theorem readByte_writeBytes {m : Memory} (h : m.wf = true) (addr : Nat) (v : NUM) (count : Nat)
    (at' : Nat) :
    readByte (writeBytes m addr v count) at' =
      if addr ≤ at' ∧ at' < addr + count then byteOf v (at' - addr) else readByte m at' := by
  induction count with
  | zero => rw [if_neg (by omega)]; rfl
  | succ count ih =>
    have hstep : readByte (writeBytes m addr v (count + 1)) at' =
        if at' = addr + count then byteOf v count
        else readByte (writeBytes m addr v count) at' :=
      readByte_writeByte (writeBytes_wf h addr v count) (addr + count) (byteOf v count) at'
    rw [hstep, ih]
    by_cases h1 : at' = addr + count
    · subst h1
      rw [if_pos rfl, if_pos (by omega), Nat.add_sub_cancel_left]
    · rw [if_neg h1]
      by_cases h2 : addr ≤ at' ∧ at' < addr + count
      · rw [if_pos h2, if_pos (by omega)]
      · rw [if_neg h2, if_neg (by omega)]

/-- A byte outside the eight stored reads as before. -/
theorem readByte_writeNum_other {m : Memory} (h : m.wf = true) (addr : Nat) (v : NUM) (at' : Nat)
    (hout : at' < addr ∨ addr + 8 ≤ at') :
    readByte (writeNum m addr v) at' = readByte m at' := by
  unfold writeNum
  rw [readByte_writeBytes h, if_neg (by omega)]

/-- The eight bytes of a NUM, the least significant first (20_memory.md R53), are the NUM. -/
theorem bytes_of_num (v : NUM) :
    byteOf v 7 ++ (byteOf v 6 ++ (byteOf v 5 ++ (byteOf v 4 ++ (byteOf v 3 ++ (byteOf v 2 ++
      (byteOf v 1 ++ byteOf v 0)))))) = v := by
  apply BitVec.eq_of_getLsbD_eq
  intro i hi
  simp only [byteOf, BitVec.getLsbD_append, BitVec.getLsbD_extractLsb']
  split_ifs <;> simp_all <;> omega

/-- A NUM read where a NUM was stored is that NUM (20_memory.md R51, R52). -/
theorem readNum_writeNum {m : Memory} (h : m.wf = true) (addr : Nat) (v : NUM) :
    readNum (writeNum m addr v) addr = v := by
  have hb : ∀ i, i < 8 → readByte (writeNum m addr v) (addr + i) = byteOf v i := by
    intro i hi
    unfold writeNum
    rw [readByte_writeBytes h, if_pos (by omega), Nat.add_sub_cancel_left]
  have h0 := hb 0 (by omega)
  rw [Nat.add_zero] at h0
  unfold readNum
  rw [h0, hb 1 (by omega), hb 2 (by omega), hb 3 (by omega), hb 4 (by omega), hb 5 (by omega),
    hb 6 (by omega), hb 7 (by omega)]
  exact bytes_of_num v

/-- A NUM stored elsewhere leaves a NUM as it was. -/
theorem readNum_writeNum_other {m : Memory} (h : m.wf = true) (addr : Nat) (v : NUM) (at' : Nat)
    (hout : at' + 8 ≤ addr ∨ addr + 8 ≤ at') :
    readNum (writeNum m addr v) at' = readNum m at' := by
  have hb : ∀ i, i < 8 → readByte (writeNum m addr v) (at' + i) = readByte m (at' + i) :=
    fun i hi => readByte_writeNum_other h addr v _ (by omega)
  have h0 := hb 0 (by omega)
  rw [Nat.add_zero] at h0
  unfold readNum
  rw [h0, hb 1 (by omega), hb 2 (by omega), hb 3 (by omega), hb 4 (by omega), hb 5 (by omega),
    hb 6 (by omega), hb 7 (by omega)]

/-- Storing samples changes no byte outside their span. -/
theorem readByte_writeSamples_other {m : Memory} (h : m.wf = true) (base : Nat) (samples : List NUM)
    (addr : Nat) (ha : addr < base ∨ base + 8 * samples.length ≤ addr) :
    readByte (writeSamples m base samples) addr = readByte m addr := by
  induction samples generalizing m base with
  | nil => rfl
  | cons v rest ih =>
    rw [List.length_cons] at ha
    rw [writeSamples, ih (writeNum_wf h base v) (base + 8) (by omega),
      readByte_writeNum_other h base v addr (by omega)]

/-- A NUM outside the span of stored samples reads as before. -/
theorem readNum_writeSamples_other {m : Memory} (h : m.wf = true) (base : Nat) (samples : List NUM)
    (addr : Nat) (ha : addr + 8 ≤ base ∨ base + 8 * samples.length ≤ addr) :
    readNum (writeSamples m base samples) addr = readNum m addr := by
  induction samples generalizing m base with
  | nil => rfl
  | cons v rest ih =>
    rw [List.length_cons] at ha
    rw [writeSamples, ih (writeNum_wf h base v) (base + 8) (by omega),
      readNum_writeNum_other h base v addr (by omega)]

/-- A stored sample reads back at its place (20_memory.md R61). -/
theorem readNum_writeSamples {m : Memory} (h : m.wf = true) (base : Nat) (samples : List NUM) (n : Nat)
    (hn : n < samples.length) : readNum (writeSamples m base samples) (base + 8 * n) = samples[n] := by
  induction samples generalizing m base n with
  | nil => simp at hn
  | cons v rest ih =>
    rw [writeSamples]
    cases n with
    | zero =>
      rw [readNum_writeSamples_other (writeNum_wf h base v) _ _ _ (by omega)]
      exact readNum_writeNum h base v
    | succ n =>
      have hr := ih (writeNum_wf h base v) (base + 8) n (by simpa using hn)
      rw [show base + 8 * (n + 1) = base + 8 + 8 * n by omega, hr, List.getElem_cons_succ]

end Sys2Proof.Machine
end

