-- ==== Sys2Proof/Laws/State.lean ====
section
/-! SUPPORT. The state records: one lemma per field per update of Machine/Ops.lean, each true by `rfl`. -/

namespace Sys2Proof.Machine

/-! What `State.setAcc` leaves and changes. -/

@[simp] theorem State.setAcc_conn (s : State) (v : NUM) : (s.setAcc v).conn = s.conn := rfl
@[simp] theorem State.setAcc_cfg (s : State) (v : NUM) : (s.setAcc v).cfg = s.cfg := rfl
@[simp] theorem State.setAcc_acc (s : State) (v : NUM) : (s.setAcc v).acc = v := rfl
@[simp] theorem State.setAcc_chans (s : State) (v : NUM) : (s.setAcc v).chans = s.chans := rfl
@[simp] theorem State.setAcc_coef (s : State) (v : NUM) : (s.setAcc v).coef = s.coef := rfl
@[simp] theorem State.setAcc_snap (s : State) (v : NUM) : (s.setAcc v).snap = s.snap := rfl
@[simp] theorem State.setAcc_amount (s : State) (v : NUM) : (s.setAcc v).amount = s.amount := rfl
@[simp] theorem State.setAcc_muted (s : State) (v : NUM) : (s.setAcc v).muted = s.muted := rfl
@[simp] theorem State.setAcc_run (s : State) (v : NUM) : (s.setAcc v).run = s.run := rfl
@[simp] theorem State.setAcc_cc (s : State) (v : NUM) : (s.setAcc v).cc = s.cc := rfl
@[simp] theorem State.setAcc_nn (s : State) (v : NUM) : (s.setAcc v).nn = s.nn := rfl
@[simp] theorem State.setAcc_spc (s : State) (v : NUM) : (s.setAcc v).spc = s.spc := rfl
@[simp] theorem State.setAcc_pendSnap (s : State) (v : NUM) : (s.setAcc v).pendSnap = s.pendSnap := rfl
@[simp] theorem State.setAcc_pendMute (s : State) (v : NUM) : (s.setAcc v).pendMute = s.pendMute := rfl
@[simp] theorem State.setAcc_ins (s : State) (v : NUM) : (s.setAcc v).ins = s.ins := rfl
@[simp] theorem State.setAcc_outs (s : State) (v : NUM) : (s.setAcc v).outs = s.outs := rfl
@[simp] theorem State.setAcc_mem (s : State) (v : NUM) : (s.setAcc v).mem = s.mem := rfl
@[simp] theorem State.setAcc_chainRom (s : State) (v : NUM) : (s.setAcc v).chainRom = s.chainRom := rfl
@[simp] theorem State.setAcc_designerRom (s : State) (v : NUM) :
    (s.setAcc v).designerRom = s.designerRom := rfl
@[simp] theorem State.setAcc_inbox (s : State) (v : NUM) : (s.setAcc v).inbox = s.inbox := rfl
@[simp] theorem State.setAcc_free (s : State) (v : NUM) : (s.setAcc v).free = s.free := rfl

/-! What `State.setChan` leaves and changes. -/

@[simp] theorem State.setChan_conn (s : State) (b : Channel) : (s.setChan b).conn = s.conn := rfl
@[simp] theorem State.setChan_cfg (s : State) (b : Channel) : (s.setChan b).cfg = s.cfg := rfl
@[simp] theorem State.setChan_acc (s : State) (b : Channel) : (s.setChan b).acc = s.acc := rfl
@[simp] theorem State.setChan_chans (s : State) (b : Channel) :
    (s.setChan b).chans = s.chans.set s.cc.val b s.cc.isLt := rfl
@[simp] theorem State.setChan_coef (s : State) (b : Channel) : (s.setChan b).coef = s.coef := rfl
@[simp] theorem State.setChan_snap (s : State) (b : Channel) : (s.setChan b).snap = s.snap := rfl
@[simp] theorem State.setChan_amount (s : State) (b : Channel) : (s.setChan b).amount = s.amount := rfl
@[simp] theorem State.setChan_muted (s : State) (b : Channel) : (s.setChan b).muted = s.muted := rfl
@[simp] theorem State.setChan_run (s : State) (b : Channel) : (s.setChan b).run = s.run := rfl
@[simp] theorem State.setChan_cc (s : State) (b : Channel) : (s.setChan b).cc = s.cc := rfl
@[simp] theorem State.setChan_nn (s : State) (b : Channel) : (s.setChan b).nn = s.nn := rfl
@[simp] theorem State.setChan_spc (s : State) (b : Channel) : (s.setChan b).spc = s.spc := rfl
@[simp] theorem State.setChan_pendSnap (s : State) (b : Channel) :
    (s.setChan b).pendSnap = s.pendSnap := rfl
@[simp] theorem State.setChan_pendMute (s : State) (b : Channel) :
    (s.setChan b).pendMute = s.pendMute := rfl
@[simp] theorem State.setChan_ins (s : State) (b : Channel) : (s.setChan b).ins = s.ins := rfl
@[simp] theorem State.setChan_outs (s : State) (b : Channel) : (s.setChan b).outs = s.outs := rfl
@[simp] theorem State.setChan_mem (s : State) (b : Channel) : (s.setChan b).mem = s.mem := rfl
@[simp] theorem State.setChan_chainRom (s : State) (b : Channel) :
    (s.setChan b).chainRom = s.chainRom := rfl
@[simp] theorem State.setChan_designerRom (s : State) (b : Channel) :
    (s.setChan b).designerRom = s.designerRom := rfl
@[simp] theorem State.setChan_inbox (s : State) (b : Channel) : (s.setChan b).inbox = s.inbox := rfl
@[simp] theorem State.setChan_free (s : State) (b : Channel) : (s.setChan b).free = s.free := rfl

/-! What `State.setFilter` leaves and changes. -/

@[simp] theorem State.setFilter_conn (s : State) (slot : Slot) (f : FilterState) :
    (s.setFilter slot f).conn = s.conn := rfl
@[simp] theorem State.setFilter_cfg (s : State) (slot : Slot) (f : FilterState) :
    (s.setFilter slot f).cfg = s.cfg := rfl
@[simp] theorem State.setFilter_acc (s : State) (slot : Slot) (f : FilterState) :
    (s.setFilter slot f).acc = s.acc := rfl
@[simp] theorem State.setFilter_chans (s : State) (slot : Slot) (f : FilterState) :
    (s.setFilter slot f).chans = s.chans.set s.cc.val { s.chan with fs := s.chan.fs.set slot.val f slot.isLt } s.cc.isLt := rfl
@[simp] theorem State.setFilter_coef (s : State) (slot : Slot) (f : FilterState) :
    (s.setFilter slot f).coef = s.coef := rfl
@[simp] theorem State.setFilter_snap (s : State) (slot : Slot) (f : FilterState) :
    (s.setFilter slot f).snap = s.snap := rfl
@[simp] theorem State.setFilter_amount (s : State) (slot : Slot) (f : FilterState) :
    (s.setFilter slot f).amount = s.amount := rfl
@[simp] theorem State.setFilter_muted (s : State) (slot : Slot) (f : FilterState) :
    (s.setFilter slot f).muted = s.muted := rfl
@[simp] theorem State.setFilter_run (s : State) (slot : Slot) (f : FilterState) :
    (s.setFilter slot f).run = s.run := rfl
@[simp] theorem State.setFilter_cc (s : State) (slot : Slot) (f : FilterState) :
    (s.setFilter slot f).cc = s.cc := rfl
@[simp] theorem State.setFilter_nn (s : State) (slot : Slot) (f : FilterState) :
    (s.setFilter slot f).nn = s.nn := rfl
@[simp] theorem State.setFilter_spc (s : State) (slot : Slot) (f : FilterState) :
    (s.setFilter slot f).spc = s.spc := rfl
@[simp] theorem State.setFilter_pendSnap (s : State) (slot : Slot) (f : FilterState) :
    (s.setFilter slot f).pendSnap = s.pendSnap := rfl
@[simp] theorem State.setFilter_pendMute (s : State) (slot : Slot) (f : FilterState) :
    (s.setFilter slot f).pendMute = s.pendMute := rfl
@[simp] theorem State.setFilter_ins (s : State) (slot : Slot) (f : FilterState) :
    (s.setFilter slot f).ins = s.ins := rfl
@[simp] theorem State.setFilter_outs (s : State) (slot : Slot) (f : FilterState) :
    (s.setFilter slot f).outs = s.outs := rfl
@[simp] theorem State.setFilter_mem (s : State) (slot : Slot) (f : FilterState) :
    (s.setFilter slot f).mem = s.mem := rfl
@[simp] theorem State.setFilter_chainRom (s : State) (slot : Slot) (f : FilterState) :
    (s.setFilter slot f).chainRom = s.chainRom := rfl
@[simp] theorem State.setFilter_designerRom (s : State) (slot : Slot) (f : FilterState) :
    (s.setFilter slot f).designerRom = s.designerRom := rfl
@[simp] theorem State.setFilter_inbox (s : State) (slot : Slot) (f : FilterState) :
    (s.setFilter slot f).inbox = s.inbox := rfl
@[simp] theorem State.setFilter_free (s : State) (slot : Slot) (f : FilterState) :
    (s.setFilter slot f).free = s.free := rfl

/-! What `State.setThicken` leaves and changes. -/

@[simp] theorem State.setThicken_conn (s : State) (t : ThickenTracker) :
    (s.setThicken t).conn = s.conn := rfl
@[simp] theorem State.setThicken_cfg (s : State) (t : ThickenTracker) :
    (s.setThicken t).cfg = s.cfg := rfl
@[simp] theorem State.setThicken_acc (s : State) (t : ThickenTracker) :
    (s.setThicken t).acc = s.acc := rfl
@[simp] theorem State.setThicken_chans (s : State) (t : ThickenTracker) :
    (s.setThicken t).chans = s.chans.set s.cc.val { s.chan with th := t } s.cc.isLt := rfl
@[simp] theorem State.setThicken_coef (s : State) (t : ThickenTracker) :
    (s.setThicken t).coef = s.coef := rfl
@[simp] theorem State.setThicken_snap (s : State) (t : ThickenTracker) :
    (s.setThicken t).snap = s.snap := rfl
@[simp] theorem State.setThicken_amount (s : State) (t : ThickenTracker) :
    (s.setThicken t).amount = s.amount := rfl
@[simp] theorem State.setThicken_muted (s : State) (t : ThickenTracker) :
    (s.setThicken t).muted = s.muted := rfl
@[simp] theorem State.setThicken_run (s : State) (t : ThickenTracker) :
    (s.setThicken t).run = s.run := rfl
@[simp] theorem State.setThicken_cc (s : State) (t : ThickenTracker) : (s.setThicken t).cc = s.cc := rfl
@[simp] theorem State.setThicken_nn (s : State) (t : ThickenTracker) : (s.setThicken t).nn = s.nn := rfl
@[simp] theorem State.setThicken_spc (s : State) (t : ThickenTracker) :
    (s.setThicken t).spc = s.spc := rfl
@[simp] theorem State.setThicken_pendSnap (s : State) (t : ThickenTracker) :
    (s.setThicken t).pendSnap = s.pendSnap := rfl
@[simp] theorem State.setThicken_pendMute (s : State) (t : ThickenTracker) :
    (s.setThicken t).pendMute = s.pendMute := rfl
@[simp] theorem State.setThicken_ins (s : State) (t : ThickenTracker) :
    (s.setThicken t).ins = s.ins := rfl
@[simp] theorem State.setThicken_outs (s : State) (t : ThickenTracker) :
    (s.setThicken t).outs = s.outs := rfl
@[simp] theorem State.setThicken_mem (s : State) (t : ThickenTracker) :
    (s.setThicken t).mem = s.mem := rfl
@[simp] theorem State.setThicken_chainRom (s : State) (t : ThickenTracker) :
    (s.setThicken t).chainRom = s.chainRom := rfl
@[simp] theorem State.setThicken_designerRom (s : State) (t : ThickenTracker) :
    (s.setThicken t).designerRom = s.designerRom := rfl
@[simp] theorem State.setThicken_inbox (s : State) (t : ThickenTracker) :
    (s.setThicken t).inbox = s.inbox := rfl
@[simp] theorem State.setThicken_free (s : State) (t : ThickenTracker) :
    (s.setThicken t).free = s.free := rfl

/-! What `State.setChug` leaves and changes. -/

@[simp] theorem State.setChug_conn (s : State) (t : ChugTracker) : (s.setChug t).conn = s.conn := rfl
@[simp] theorem State.setChug_cfg (s : State) (t : ChugTracker) : (s.setChug t).cfg = s.cfg := rfl
@[simp] theorem State.setChug_acc (s : State) (t : ChugTracker) : (s.setChug t).acc = s.acc := rfl
@[simp] theorem State.setChug_chans (s : State) (t : ChugTracker) :
    (s.setChug t).chans = s.chans.set s.cc.val { s.chan with ch := t } s.cc.isLt := rfl
@[simp] theorem State.setChug_coef (s : State) (t : ChugTracker) : (s.setChug t).coef = s.coef := rfl
@[simp] theorem State.setChug_snap (s : State) (t : ChugTracker) : (s.setChug t).snap = s.snap := rfl
@[simp] theorem State.setChug_amount (s : State) (t : ChugTracker) :
    (s.setChug t).amount = s.amount := rfl
@[simp] theorem State.setChug_muted (s : State) (t : ChugTracker) : (s.setChug t).muted = s.muted := rfl
@[simp] theorem State.setChug_run (s : State) (t : ChugTracker) : (s.setChug t).run = s.run := rfl
@[simp] theorem State.setChug_cc (s : State) (t : ChugTracker) : (s.setChug t).cc = s.cc := rfl
@[simp] theorem State.setChug_nn (s : State) (t : ChugTracker) : (s.setChug t).nn = s.nn := rfl
@[simp] theorem State.setChug_spc (s : State) (t : ChugTracker) : (s.setChug t).spc = s.spc := rfl
@[simp] theorem State.setChug_pendSnap (s : State) (t : ChugTracker) :
    (s.setChug t).pendSnap = s.pendSnap := rfl
@[simp] theorem State.setChug_pendMute (s : State) (t : ChugTracker) :
    (s.setChug t).pendMute = s.pendMute := rfl
@[simp] theorem State.setChug_ins (s : State) (t : ChugTracker) : (s.setChug t).ins = s.ins := rfl
@[simp] theorem State.setChug_outs (s : State) (t : ChugTracker) : (s.setChug t).outs = s.outs := rfl
@[simp] theorem State.setChug_mem (s : State) (t : ChugTracker) : (s.setChug t).mem = s.mem := rfl
@[simp] theorem State.setChug_chainRom (s : State) (t : ChugTracker) :
    (s.setChug t).chainRom = s.chainRom := rfl
@[simp] theorem State.setChug_designerRom (s : State) (t : ChugTracker) :
    (s.setChug t).designerRom = s.designerRom := rfl
@[simp] theorem State.setChug_inbox (s : State) (t : ChugTracker) : (s.setChug t).inbox = s.inbox := rfl
@[simp] theorem State.setChug_free (s : State) (t : ChugTracker) : (s.setChug t).free = s.free := rfl

/-! What `State.setCoef` leaves and changes. -/

@[simp] theorem State.setCoef_conn (s : State) (slot : Slot) (k : Coefs) :
    (s.setCoef slot k).conn = s.conn := rfl
@[simp] theorem State.setCoef_cfg (s : State) (slot : Slot) (k : Coefs) :
    (s.setCoef slot k).cfg = s.cfg := rfl
@[simp] theorem State.setCoef_acc (s : State) (slot : Slot) (k : Coefs) :
    (s.setCoef slot k).acc = s.acc := rfl
@[simp] theorem State.setCoef_chans (s : State) (slot : Slot) (k : Coefs) :
    (s.setCoef slot k).chans = s.chans := rfl
@[simp] theorem State.setCoef_coef (s : State) (slot : Slot) (k : Coefs) :
    (s.setCoef slot k).coef = s.coef.set slot.val k slot.isLt := rfl
@[simp] theorem State.setCoef_snap (s : State) (slot : Slot) (k : Coefs) :
    (s.setCoef slot k).snap = s.snap := rfl
@[simp] theorem State.setCoef_amount (s : State) (slot : Slot) (k : Coefs) :
    (s.setCoef slot k).amount = s.amount := rfl
@[simp] theorem State.setCoef_muted (s : State) (slot : Slot) (k : Coefs) :
    (s.setCoef slot k).muted = s.muted := rfl
@[simp] theorem State.setCoef_run (s : State) (slot : Slot) (k : Coefs) :
    (s.setCoef slot k).run = s.run := rfl
@[simp] theorem State.setCoef_cc (s : State) (slot : Slot) (k : Coefs) :
    (s.setCoef slot k).cc = s.cc := rfl
@[simp] theorem State.setCoef_nn (s : State) (slot : Slot) (k : Coefs) :
    (s.setCoef slot k).nn = s.nn := rfl
@[simp] theorem State.setCoef_spc (s : State) (slot : Slot) (k : Coefs) :
    (s.setCoef slot k).spc = s.spc := rfl
@[simp] theorem State.setCoef_pendSnap (s : State) (slot : Slot) (k : Coefs) :
    (s.setCoef slot k).pendSnap = s.pendSnap := rfl
@[simp] theorem State.setCoef_pendMute (s : State) (slot : Slot) (k : Coefs) :
    (s.setCoef slot k).pendMute = s.pendMute := rfl
@[simp] theorem State.setCoef_ins (s : State) (slot : Slot) (k : Coefs) :
    (s.setCoef slot k).ins = s.ins := rfl
@[simp] theorem State.setCoef_outs (s : State) (slot : Slot) (k : Coefs) :
    (s.setCoef slot k).outs = s.outs := rfl
@[simp] theorem State.setCoef_mem (s : State) (slot : Slot) (k : Coefs) :
    (s.setCoef slot k).mem = s.mem := rfl
@[simp] theorem State.setCoef_chainRom (s : State) (slot : Slot) (k : Coefs) :
    (s.setCoef slot k).chainRom = s.chainRom := rfl
@[simp] theorem State.setCoef_designerRom (s : State) (slot : Slot) (k : Coefs) :
    (s.setCoef slot k).designerRom = s.designerRom := rfl
@[simp] theorem State.setCoef_inbox (s : State) (slot : Slot) (k : Coefs) :
    (s.setCoef slot k).inbox = s.inbox := rfl
@[simp] theorem State.setCoef_free (s : State) (slot : Slot) (k : Coefs) :
    (s.setCoef slot k).free = s.free := rfl

/-! What `State.advance` leaves and changes. -/

@[simp] theorem State.advance_conn (s : State) : (s.advance).conn = s.conn := rfl
@[simp] theorem State.advance_cfg (s : State) : (s.advance).cfg = s.cfg := rfl
@[simp] theorem State.advance_acc (s : State) : (s.advance).acc = s.acc := rfl
@[simp] theorem State.advance_chans (s : State) : (s.advance).chans = s.chans := rfl
@[simp] theorem State.advance_coef (s : State) : (s.advance).coef = s.coef := rfl
@[simp] theorem State.advance_snap (s : State) : (s.advance).snap = s.snap := rfl
@[simp] theorem State.advance_amount (s : State) : (s.advance).amount = s.amount := rfl
@[simp] theorem State.advance_muted (s : State) : (s.advance).muted = s.muted := rfl
@[simp] theorem State.advance_run (s : State) : (s.advance).run = s.run := rfl
@[simp] theorem State.advance_cc (s : State) : (s.advance).cc = s.cc := rfl
@[simp] theorem State.advance_nn (s : State) : (s.advance).nn = s.nn := rfl
@[simp] theorem State.advance_spc (s : State) : (s.advance).spc = s.spc + 1 := rfl
@[simp] theorem State.advance_pendSnap (s : State) : (s.advance).pendSnap = s.pendSnap := rfl
@[simp] theorem State.advance_pendMute (s : State) : (s.advance).pendMute = s.pendMute := rfl
@[simp] theorem State.advance_ins (s : State) : (s.advance).ins = s.ins := rfl
@[simp] theorem State.advance_outs (s : State) : (s.advance).outs = s.outs := rfl
@[simp] theorem State.advance_mem (s : State) : (s.advance).mem = s.mem := rfl
@[simp] theorem State.advance_chainRom (s : State) : (s.advance).chainRom = s.chainRom := rfl
@[simp] theorem State.advance_designerRom (s : State) : (s.advance).designerRom = s.designerRom := rfl
@[simp] theorem State.advance_inbox (s : State) : (s.advance).inbox = s.inbox := rfl
@[simp] theorem State.advance_free (s : State) : (s.advance).free = s.free := rfl

/-! What `State.writeOut` leaves and changes. -/

@[simp] theorem State.writeOut_conn (s : State) (v : NUM) : (s.writeOut v).conn = s.conn := rfl
@[simp] theorem State.writeOut_cfg (s : State) (v : NUM) : (s.writeOut v).cfg = s.cfg := rfl
@[simp] theorem State.writeOut_acc (s : State) (v : NUM) : (s.writeOut v).acc = s.acc := rfl
@[simp] theorem State.writeOut_chans (s : State) (v : NUM) : (s.writeOut v).chans = s.chans := rfl
@[simp] theorem State.writeOut_coef (s : State) (v : NUM) : (s.writeOut v).coef = s.coef := rfl
@[simp] theorem State.writeOut_snap (s : State) (v : NUM) : (s.writeOut v).snap = s.snap := rfl
@[simp] theorem State.writeOut_amount (s : State) (v : NUM) : (s.writeOut v).amount = s.amount := rfl
@[simp] theorem State.writeOut_muted (s : State) (v : NUM) : (s.writeOut v).muted = s.muted := rfl
@[simp] theorem State.writeOut_run (s : State) (v : NUM) : (s.writeOut v).run = s.run := rfl
@[simp] theorem State.writeOut_cc (s : State) (v : NUM) : (s.writeOut v).cc = s.cc := rfl
@[simp] theorem State.writeOut_nn (s : State) (v : NUM) : (s.writeOut v).nn = s.nn := rfl
@[simp] theorem State.writeOut_spc (s : State) (v : NUM) : (s.writeOut v).spc = s.spc := rfl
@[simp] theorem State.writeOut_pendSnap (s : State) (v : NUM) :
    (s.writeOut v).pendSnap = s.pendSnap := rfl
@[simp] theorem State.writeOut_pendMute (s : State) (v : NUM) :
    (s.writeOut v).pendMute = s.pendMute := rfl
@[simp] theorem State.writeOut_ins (s : State) (v : NUM) : (s.writeOut v).ins = s.ins := rfl
@[simp] theorem State.writeOut_outs (s : State) (v : NUM) : (s.writeOut v).outs = s.outs := rfl
@[simp] theorem State.writeOut_mem (s : State) (v : NUM) :
    (s.writeOut v).mem = writeNum s.mem (sampleAddr s.outs[s.cc] s.nn) v := rfl
@[simp] theorem State.writeOut_chainRom (s : State) (v : NUM) :
    (s.writeOut v).chainRom = s.chainRom := rfl
@[simp] theorem State.writeOut_designerRom (s : State) (v : NUM) :
    (s.writeOut v).designerRom = s.designerRom := rfl
@[simp] theorem State.writeOut_inbox (s : State) (v : NUM) : (s.writeOut v).inbox = s.inbox := rfl
@[simp] theorem State.writeOut_free (s : State) (v : NUM) : (s.writeOut v).free = s.free := rfl

/-! The designer operation changes one coefficient set. -/

@[simp] theorem designSlot_conn (slot : Slot) (type : FilterType) (s : State) :
    (designSlot slot type s).conn = s.conn := rfl
@[simp] theorem designSlot_cfg (slot : Slot) (type : FilterType) (s : State) :
    (designSlot slot type s).cfg = s.cfg := rfl
@[simp] theorem designSlot_acc (slot : Slot) (type : FilterType) (s : State) :
    (designSlot slot type s).acc = s.acc := rfl
@[simp] theorem designSlot_chans (slot : Slot) (type : FilterType) (s : State) :
    (designSlot slot type s).chans = s.chans := rfl
@[simp] theorem designSlot_snap (slot : Slot) (type : FilterType) (s : State) :
    (designSlot slot type s).snap = s.snap := rfl
@[simp] theorem designSlot_amount (slot : Slot) (type : FilterType) (s : State) :
    (designSlot slot type s).amount = s.amount := rfl
@[simp] theorem designSlot_muted (slot : Slot) (type : FilterType) (s : State) :
    (designSlot slot type s).muted = s.muted := rfl
@[simp] theorem designSlot_run (slot : Slot) (type : FilterType) (s : State) :
    (designSlot slot type s).run = s.run := rfl
@[simp] theorem designSlot_cc (slot : Slot) (type : FilterType) (s : State) :
    (designSlot slot type s).cc = s.cc := rfl
@[simp] theorem designSlot_nn (slot : Slot) (type : FilterType) (s : State) :
    (designSlot slot type s).nn = s.nn := rfl
@[simp] theorem designSlot_spc (slot : Slot) (type : FilterType) (s : State) :
    (designSlot slot type s).spc = s.spc := rfl
@[simp] theorem designSlot_pendSnap (slot : Slot) (type : FilterType) (s : State) :
    (designSlot slot type s).pendSnap = s.pendSnap := rfl
@[simp] theorem designSlot_pendMute (slot : Slot) (type : FilterType) (s : State) :
    (designSlot slot type s).pendMute = s.pendMute := rfl
@[simp] theorem designSlot_ins (slot : Slot) (type : FilterType) (s : State) :
    (designSlot slot type s).ins = s.ins := rfl
@[simp] theorem designSlot_outs (slot : Slot) (type : FilterType) (s : State) :
    (designSlot slot type s).outs = s.outs := rfl
@[simp] theorem designSlot_mem (slot : Slot) (type : FilterType) (s : State) :
    (designSlot slot type s).mem = s.mem := rfl
@[simp] theorem designSlot_chainRom (slot : Slot) (type : FilterType) (s : State) :
    (designSlot slot type s).chainRom = s.chainRom := rfl
@[simp] theorem designSlot_designerRom (slot : Slot) (type : FilterType) (s : State) :
    (designSlot slot type s).designerRom = s.designerRom := rfl
@[simp] theorem designSlot_inbox (slot : Slot) (type : FilterType) (s : State) :
    (designSlot slot type s).inbox = s.inbox := rfl
@[simp] theorem designSlot_free (slot : Slot) (type : FilterType) (s : State) :
    (designSlot slot type s).free = s.free := rfl

@[simp] theorem designSlot_coef (slot : Slot) (type : FilterType) (s : State) :
    (designSlot slot type s).coef =
      s.coef.set slot.val (slotCoefs s.snap s.cfg slot type) slot.isLt := rfl

/-! The bundle of the current channel after each update. -/

@[simp] theorem State.setAcc_chan (s : State) (v : NUM) : (s.setAcc v).chan = s.chan := rfl
@[simp] theorem State.advance_chan (s : State) : s.advance.chan = s.chan := rfl
@[simp] theorem State.setCoef_chan (s : State) (slot : Slot) (k : Coefs) :
    (s.setCoef slot k).chan = s.chan := rfl
@[simp] theorem State.writeOut_chan (s : State) (v : NUM) : (s.writeOut v).chan = s.chan := rfl
@[simp] theorem State.setChan_chan (s : State) (b : Channel) : (s.setChan b).chan = b := by
  simp [State.chan, State.setChan]

/-- The other channel's bundle survives every write to the current one (46_block_processor.md R206). -/
theorem State.setChan_other (s : State) (b : Channel) (c : Chan) (h : c ≠ s.cc) :
    (s.setChan b).chans[c] = s.chans[c] := by
  have hne : s.cc.val ≠ c.val := fun e => h (Fin.ext e.symm)
  simp [State.setChan, Vector.getElem_set_ne _ _ hne]

end Sys2Proof.Machine
end

