-- ==== Sys2Proof/Laws/Ops.lean ====
section
/-! SUPPORT. What each shared operation of Machine/Ops.lean can do, once. -/

namespace Sys2Proof.Machine

/-- A stage descriptor whose predicate holds: the operation, then `spc + 1` (46_block_processor.md R207). -/
theorem staged_of_holds {p : Pred} {op : State → State} {s : State}
    (h : predHolds s.snap p = true) : staged p op s = (op s).advance := by
  simp [staged, h]

/-- A stage descriptor whose predicate fails: only `spc + 1` (R207). -/
theorem staged_of_fails {p : Pred} {op : State → State} {s : State}
    (h : predHolds s.snap p = false) : staged p op s = s.advance := by
  simp [staged, h]

/-- Either way of a stage descriptor, once. -/
theorem staged_cases (p : Pred) (op : State → State) (s : State) :
    (predHolds s.snap p = true ∧ staged p op s = (op s).advance) ∨
    (predHolds s.snap p = false ∧ staged p op s = s.advance) := by
  cases h : predHolds s.snap p
  · exact .inr ⟨rfl, staged_of_fails h⟩
  · exact .inl ⟨rfl, staged_of_holds h⟩

/-- The end of a frame: the three ways on (R205, R208). -/
theorem endFrame_cases (s : State) :
    (s.nn + 1 < s.cfg.blockLen ∧ s.endFrame = { s with spc := 0, nn := s.nn + 1 }) ∨
    (s.cfg.blockLen ≤ s.nn + 1 ∧ s.cc = 0 ∧ s.endFrame = { s with spc := 0, nn := 0, cc := 1 }) ∨
    (s.cfg.blockLen ≤ s.nn + 1 ∧ s.cc = 1 ∧
      s.endFrame =
        { s with
          run := false, spc := 0, nn := 0, cc := 0, ins := [], outs := Vector.replicate 2 0 }) := by
  unfold State.endFrame
  by_cases h1 : s.nn + 1 < s.cfg.blockLen
  · exact .inl ⟨h1, if_pos h1⟩
  · rw [if_neg h1]
    by_cases h2 : s.cc = 0
    · exact .inr (.inl ⟨by omega, h2, if_pos h2⟩)
    · refine .inr (.inr ⟨by omega, ?_, if_neg h2⟩)
      have := s.cc.isLt
      have h3 : s.cc.val ≠ 0 := fun e => h2 (Fin.ext e)
      exact Fin.ext (by change s.cc.val = 1; omega)

/-- Where `LDIN` reads (R209). -/
theorem inputAddr_cases (s : State) :
    (∃ h : s.cc.val < s.ins.length, s.inputAddr = some (sampleAddr s.ins[s.cc.val] s.nn)) ∨
    (s.ins.length ≤ s.cc.val ∧ ∃ h : 0 < s.ins.length, s.inputAddr = some (sampleAddr s.ins[0] s.nn)) ∨
    (s.ins = [] ∧ s.inputAddr = none) := by
  unfold State.inputAddr
  by_cases h : s.cc.val < s.ins.length
  · refine .inl ⟨h, ?_⟩
    rw [List.getElem?_eq_getElem h]
  · have hn : s.ins[s.cc.val]? = none := List.getElem?_eq_none (by omega)
    rw [hn]
    cases hi : s.ins with
    | nil => exact .inr (.inr ⟨rfl, rfl⟩)
    | cons base rest =>
      refine .inr (.inl ⟨?_, by simp, by simp⟩)
      rw [hi] at h
      omega

/-- `toOutcome` goes on only with a state. -/
@[simp] theorem toOutcome_next {e : Except Refusal State} {t : State} :
    toOutcome e = .next t ↔ e = .ok t := by
  cases e <;> simp [toOutcome]

/-- A designer pass that ends changes COEF and nothing else (46_block_processor.md R216). -/
theorem runDesigner_ok {rom : List Word16} {s t : State} (h : runDesigner rom s = .ok t) :
    t = { s with coef := t.coef } := by
  induction rom generalizing s with
  | nil => simp [runDesigner] at h
  | cons w rest ih =>
    unfold runDesigner at h
    split at h
    · simp at h
    · cases h; rfl
    · split at h
      · have ht := ih h
        exact ht
      · simp at h

/-- Eleven writes, one a slot, leave exactly what they wrote. -/
theorem coef_pass (v : Vector Coefs 11) (f : Slot → Coefs) :
    ((((((((((v.set 0 (f 0)).set 1 (f 1)).set 2 (f 2)).set 3 (f 3)).set 4 (f 4)).set 5 (f 5)).set 6
      (f 6)).set 7 (f 7)).set 8 (f 8)).set 9 (f 9)).set 10 (f 10) = Vector.ofFn f := by
  apply Vector.ext
  intro i hi
  interval_cases i <;> simp

/-- The designer pass of R78's ROM computes all eleven coefficient sets from SNAP and CFG, and touches
nothing else (45_tonestack_peq_lofi.md R185). -/
theorem runDesigner_rom (s : State) :
    runDesigner designerRomWords s = .ok { s with coef := snapshotCoefs s.snap s.cfg } := by
  have h : runDesigner designerRomWords s =
      .ok (designSlot 10 .highpass (designSlot 9 .lowpass (designSlot 8 .peaking (designSlot 7 .peaking
        (designSlot 6 .peaking (designSlot 5 .peaking (designSlot 4 .highshelf (designSlot 3 .highshelf
          (designSlot 2 .peaking (designSlot 1 .lowshelf (designSlot 0 .lowshelf s))))))))))) := rfl
  rw [h]
  simp only [designSlot, State.setCoef, snapshotCoefs, Except.ok.injEq, State.mk.injEq, true_and,
    and_true]
  rw [← coef_pass s.coef]
  rfl

/-- An applied snapshot changes SNAP, AMOUNT and COEF, and nothing else (R216). -/
theorem applySnapshot_ok {snap : Snapshot} {s t : State} (h : applySnapshot snap s = .ok t) :
    t = { s with
      snap := snap
      amount := shapeAmount s.cfg snap.drive snap.punish snap.plus10db
      coef := t.coef } := runDesigner_ok h

/-- With R78's ROM a snapshot always applies, and COEF is the designer's output for it (R216). -/
theorem applySnapshot_rom {snap : Snapshot} {s : State} (h : s.designerRom = designerRomWords) :
    applySnapshot snap s = .ok { s with
      snap := snap
      amount := shapeAmount s.cfg snap.drive snap.punish snap.plus10db
      coef := snapshotCoefs snap s.cfg } := by
  unfold applySnapshot
  rw [h]
  exact runDesigner_rom _

@[simp] theorem applyMute_none (s : State) : applyMute none s = s := rfl
@[simp] theorem applyMute_some (b : Bool) (s : State) : applyMute (some b) s = { s with muted := b } := rfl

/-- A boundary step that ends changes SNAP, AMOUNT, COEF, MUTED and the mailbox, and nothing else, and
leaves the mailbox empty (R213). -/
theorem boundary_ok {s t : State} (h : boundary s = .ok t) :
    t = { s with
      snap := t.snap, amount := t.amount, coef := t.coef, muted := t.muted
      pendSnap := none, pendMute := none } := by
  cases hs : s.pendSnap with
  | none =>
    cases hm : s.pendMute <;> simp only [boundary, hs, hm] at h <;> cases h <;> rfl
  | some m =>
    cases ha : applySnapshot (resolve m) s with
    | error r => simp [boundary, hs, ha] at h
    | ok u =>
      have hu := applySnapshot_ok ha
      cases hm : s.pendMute <;> simp only [boundary, hs, ha, hm] at h <;> cases h <;> rw [hu] <;> rfl

/-- With R78's ROM the boundary step always ends (R213, R216, R217). -/
theorem boundary_rom {s : State} (h : s.designerRom = designerRomWords) :
    boundary s = .ok
      { (match s.pendSnap with
          | some m => { s with
              snap := resolve m
              amount := shapeAmount s.cfg (resolve m).drive (resolve m).punish (resolve m).plus10db
              coef := snapshotCoefs (resolve m) s.cfg }
          | none => s) with
        muted := s.pendMute.getD s.muted, pendSnap := none, pendMute := none } := by
  cases hs : s.pendSnap with
  | none => cases hm : s.pendMute <;> simp only [boundary, hs, hm] <;> rfl
  | some m =>
    cases hm : s.pendMute <;> simp only [boundary, hs, hm, applySnapshot_rom h] <;> rfl

/-- The ROMs of R77 and R78 hold descriptors only (30_encoding.md R83). -/
theorem romsLegal_of_fixed {s : State} (hc : s.chainRom = chainRomWords)
    (hd : s.designerRom = designerRomWords) : s.romsLegal = true := by
  unfold State.romsLegal
  rw [hc, hd]
  decide

end Sys2Proof.Machine
end

