-- ==== Sys2Proof/Laws/PerInstr.lean ====
section
/-! SUPPORT. Families of facts about every instruction, one lemma a constructor. -/

namespace Sys2Proof.Laws

/-- The table's format of a row (30_encoding.md R70, R88): S and D are one descriptor word, M is a message,
H is a signal. -/
def tableFormat : Instr → String
  | .endPass => "S"
  | .ldin _ => "S"
  | .preg _ => "S"
  | .shape _ => "S"
  | .thick _ => "S"
  | .chug _ => "S"
  | .bq _ _ => "S"
  | .trim _ => "S"
  | .outg _ => "S"
  | .stout _ => "S"
  | .dsgnLowshelf _ => "D"
  | .dsgnHighshelf _ => "D"
  | .dsgnPeaking _ => "D"
  | .dsgnLowpass _ => "D"
  | .dsgnHighpass _ => "D"
  | .dsgnOther _ _ => "D"
  | .updset _ => "M"
  | .setmute _ => "M"
  | .connect _ => "H"
  | .process _ _ _ => "H"
  | .disconnect => "H"

/-- The operation field of a descriptor's word, the message number of a message's header (R73, R79). -/
def codeOp : Code → Option Nat
  | .descriptor w => some (w.extractLsb' 12 4).toNat
  | .message (header :: _) => some (header.extractLsb' 56 8).toNat
  | .message [] => none
  | .signal _ => none

/-- The number the spec gives a row (R73, R79); a signal has none. -/
def tableOp : Instr → Option Nat
  | .endPass => some 0
  | .ldin _ => some 1
  | .preg _ => some 2
  | .shape _ => some 3
  | .thick _ => some 4
  | .chug _ => some 5
  | .bq _ _ => some 6
  | .trim _ => some 7
  | .outg _ => some 8
  | .stout _ => some 9
  | .dsgnLowshelf _ => some 13
  | .dsgnHighshelf _ => some 13
  | .dsgnPeaking _ => some 13
  | .dsgnLowpass _ => some 13
  | .dsgnHighpass _ => some 13
  | .dsgnOther _ _ => some 13
  | .updset _ => some 1
  | .setmute _ => some 2
  | .connect _ => none
  | .process _ _ _ => none
  | .disconnect => none

/-- An instruction's code has the carrier of its format and the number of its row, whatever its operands. -/
def EncodesItsRow.Statement (i : Instr) : Prop :=
  codeOp (encode i) = tableOp i ∧
  match encode i with
  | .descriptor _ => tableFormat i = "S" ∨ tableFormat i = "D"
  | .message _ => tableFormat i = "M"
  | .signal _ => tableFormat i = "H"

/-- The top field of a format S word is its operation, for every index and predicate. -/
theorem formatS_op (op idx : BitVec 4) (p : Pred) : (formatS op idx p).extractLsb' 12 4 = op := by
  unfold formatS
  apply BitVec.eq_of_getLsbD_eq
  intro i hi
  simp only [BitVec.getLsbD_extractLsb', BitVec.getLsbD_append]
  interval_cases i <;> simp

/-- The top field of a format D word is 0xD, for every slot and type. -/
theorem formatD_op (slot : Slot) (type : BitVec 8) : (formatD slot type).extractLsb' 12 4 = 0xD#4 := by
  unfold formatD
  apply BitVec.eq_of_getLsbD_eq
  intro i hi
  simp only [BitVec.getLsbD_extractLsb', BitVec.getLsbD_append]
  interval_cases i <;> simp

/-- The top field of a message header is its number, whatever the low bits. -/
theorem header_op (msgop : BitVec 8) (zero : BitVec 24) (present : BitVec 32) :
    (msgop ++ (zero ++ present) : BitVec 64).extractLsb' 56 8 = msgop := by
  apply BitVec.eq_of_getLsbD_eq
  intro i hi
  simp only [BitVec.getLsbD_extractLsb', BitVec.getLsbD_append]
  interval_cases i <;> simp

theorem EncodesItsRow.endPass :
    EncodesItsRow.Statement (.endPass) := ⟨rfl, .inl rfl⟩

theorem EncodesItsRow.ldin (p : Pred) :
    EncodesItsRow.Statement (.ldin p) := ⟨by simp only [encode, codeOp, formatS_op]; rfl, .inl rfl⟩

theorem EncodesItsRow.preg (p : Pred) :
    EncodesItsRow.Statement (.preg p) := ⟨by simp only [encode, codeOp, formatS_op]; rfl, .inl rfl⟩

theorem EncodesItsRow.shape (p : Pred) :
    EncodesItsRow.Statement (.shape p) := ⟨by simp only [encode, codeOp, formatS_op]; rfl, .inl rfl⟩

theorem EncodesItsRow.thick (p : Pred) :
    EncodesItsRow.Statement (.thick p) := ⟨by simp only [encode, codeOp, formatS_op]; rfl, .inl rfl⟩

theorem EncodesItsRow.chug (p : Pred) :
    EncodesItsRow.Statement (.chug p) := ⟨by simp only [encode, codeOp, formatS_op]; rfl, .inl rfl⟩

theorem EncodesItsRow.bq (slot : Slot) (p : Pred) :
    EncodesItsRow.Statement (.bq slot p) := ⟨by simp only [encode, codeOp, formatS_op]; rfl, .inl rfl⟩

theorem EncodesItsRow.trim (p : Pred) :
    EncodesItsRow.Statement (.trim p) := ⟨by simp only [encode, codeOp, formatS_op]; rfl, .inl rfl⟩

theorem EncodesItsRow.outg (p : Pred) :
    EncodesItsRow.Statement (.outg p) := ⟨by simp only [encode, codeOp, formatS_op]; rfl, .inl rfl⟩

theorem EncodesItsRow.stout (p : Pred) :
    EncodesItsRow.Statement (.stout p) := ⟨by simp only [encode, codeOp, formatS_op]; rfl, .inl rfl⟩

theorem EncodesItsRow.dsgnLowshelf (slot : Slot) :
    EncodesItsRow.Statement (.dsgnLowshelf slot) := ⟨by simp only [encode, codeOp, formatD_op]; rfl, .inr rfl⟩

theorem EncodesItsRow.dsgnHighshelf (slot : Slot) :
    EncodesItsRow.Statement (.dsgnHighshelf slot) := ⟨by simp only [encode, codeOp, formatD_op]; rfl, .inr rfl⟩

theorem EncodesItsRow.dsgnPeaking (slot : Slot) :
    EncodesItsRow.Statement (.dsgnPeaking slot) := ⟨by simp only [encode, codeOp, formatD_op]; rfl, .inr rfl⟩

theorem EncodesItsRow.dsgnLowpass (slot : Slot) :
    EncodesItsRow.Statement (.dsgnLowpass slot) := ⟨by simp only [encode, codeOp, formatD_op]; rfl, .inr rfl⟩

theorem EncodesItsRow.dsgnHighpass (slot : Slot) :
    EncodesItsRow.Statement (.dsgnHighpass slot) := ⟨by simp only [encode, codeOp, formatD_op]; rfl, .inr rfl⟩

theorem EncodesItsRow.dsgnOther (slot : Slot) (type : BitVec 8) :
    EncodesItsRow.Statement (.dsgnOther slot type) := ⟨by simp only [encode, codeOp, formatD_op]; rfl, .inr rfl⟩

theorem EncodesItsRow.updset (m : SettingsMsg) :
    EncodesItsRow.Statement (.updset m) := ⟨by simp only [encode, encodeSettings, codeOp, header_op]; rfl, rfl⟩

theorem EncodesItsRow.setmute (b : Bool) :
    EncodesItsRow.Statement (.setmute b) := ⟨by cases b <;> rfl, rfl⟩

theorem EncodesItsRow.connect (cfg : Cfg) :
    EncodesItsRow.Statement (.connect cfg) := ⟨rfl, rfl⟩

theorem EncodesItsRow.process (ins : List Nat) (out0 out1 : Nat) :
    EncodesItsRow.Statement (.process ins out0 out1) := ⟨rfl, rfl⟩

theorem EncodesItsRow.disconnect :
    EncodesItsRow.Statement (.disconnect) := ⟨rfl, rfl⟩

end Sys2Proof.Laws
end

