-- ==== Sys2Proof/Laws/Step.lean ====
section
/-! SUPPORT. What one step can do, once: a descriptor inside a block; between blocks the host's next action,
or nothing. -/

namespace Sys2Proof.Machine

theorem fetch_inBlock {s : State} (h : s.inBlock = true) : fetch s = (fetchDescriptor s, s) := by
  simp [fetch, h]

theorem fetch_between {s : State} (h : s.inBlock = false) (action : HostAction)
    (rest : List HostAction) (hi : s.inbox = action :: rest) :
    fetch s = (hostEvent action, { s with inbox := rest }) := by
  simp [fetch, h, hi]

theorem fetch_idle {s : State} (h : s.inBlock = false) (hi : s.inbox = []) : fetch s = (.idle, s) := by
  simp [fetch, h, hi]

/-- The descriptor at `spc`, decoded (46_block_processor.md R207). -/
theorem fetchDescriptor_run {s : State} {w : Word16} {i : Instr} (hw : s.chainRom[s.spc]? = some w)
    (hi : decodeDescriptor w = .ok i) : fetchDescriptor s = .run i := by
  simp [fetchDescriptor, hw, hi]

/-- A step that goes on is one of five: a descriptor of the running block; between blocks the host's
message or signal, a discarded message, a store of samples, or idling. -/
theorem step_cases {s t : State} (h : step s = .next t) :
    (s.inBlock = true ∧ ∃ w i, s.chainRom[s.spc]? = some w ∧ decodeDescriptor w = .ok i ∧
      exec i s = .next t) ∨
    (s.inBlock = false ∧ ∃ action rest i, s.inbox = action :: rest ∧ hostEvent action = .run i ∧
      exec i { s with inbox := rest } = .next t) ∨
    (s.inBlock = false ∧ ∃ action rest, s.inbox = action :: rest ∧ hostEvent action = .discard ∧
      t = { s with inbox := rest }) ∨
    (s.inBlock = false ∧ ∃ base samples rest, s.inbox = .store base samples :: rest ∧
      t = { s with inbox := rest, mem := writeSamples s.mem base samples }) ∨
    (s.inBlock = false ∧ s.inbox = [] ∧ t = s) := by
  cases hb : s.inBlock with
  | true =>
    refine .inl ⟨rfl, ?_⟩
    unfold step at h
    rw [fetch_inBlock hb] at h
    unfold fetchDescriptor at h
    cases hw : s.chainRom[s.spc]? with
    | none => rw [hw] at h; cases h
    | some w =>
      cases hd : decodeDescriptor w with
      | error e => simp only [hw, hd] at h; cases h
      | ok i => simp only [hw, hd] at h; exact ⟨w, i, rfl, hd, h⟩
  | false =>
    refine .inr ?_
    unfold step at h
    cases hi : s.inbox with
    | nil =>
      rw [fetch_idle hb hi] at h
      cases h
      exact .inr (.inr (.inr ⟨rfl, rfl, rfl⟩))
    | cons action rest =>
      rw [fetch_between hb action rest hi] at h
      cases he : hostEvent action with
      | run i => simp only [he] at h; exact .inl ⟨rfl, action, rest, i, rfl, he, h⟩
      | discard => simp only [he] at h; cases h; exact .inr (.inl ⟨rfl, action, rest, rfl, he, rfl⟩)
      | idle => cases action <;> simp only [hostEvent] at he <;> first | cases he | (split at he <;> cases he)
      | stuck r => cases action <;> simp only [hostEvent] at he <;> first | cases he | (split at he <;> cases he)
      | store base samples =>
        simp only [he] at h
        cases h
        refine .inr (.inr (.inl ⟨rfl, base, samples, rest, ?_, rfl⟩))
        cases action with
        | message words => simp only [hostEvent] at he; split at he <;> cases he
        | signal sig => simp only [hostEvent] at he; cases he
        | store b l => simp only [hostEvent] at he; cases he; rfl

end Sys2Proof.Machine
end

