-- ==== Sys2Proof/Machine/Assembler.lean ====
section
/-! DEFINITION. The assembler's text of a descriptor and of the messages and signals without operands to
print (30_encoding.md R86): mnemonic, index, `?PRED` (absent for ALWAYS). -/

namespace Sys2Proof.Machine

/-- `?PRED`, empty for ALWAYS (R74, R86). -/
def predText : Pred → String
  | .always => ""
  | .ncl => " ?NCL"
  | .thk => " ?THK"
  | .chg => " ?CHG"
  | .lofi => " ?LOFI"

/-- `DSGN idx, TYPE` (R76, R86). -/
def designText (slot : Slot) (type : String) : String := "DSGN " ++ toString slot.val ++ ", " ++ type

/-- The listing's text of an instruction; none for those whose operands are host data. -/
def asmText : Instr → Option String
  | .endPass => some "END"
  | .ldin p => some ("LDIN" ++ predText p)
  | .preg p => some ("PREG" ++ predText p)
  | .shape p => some ("SHAPE" ++ predText p)
  | .thick p => some ("THICK" ++ predText p)
  | .chug p => some ("CHUG" ++ predText p)
  | .bq slot p => some ("BQ " ++ toString slot.val ++ predText p)
  | .trim p => some ("TRIM" ++ predText p)
  | .outg p => some ("OUTG" ++ predText p)
  | .stout p => some ("STOUT" ++ predText p)
  | .dsgnLowshelf slot => some (designText slot "LOWSHELF")
  | .dsgnHighshelf slot => some (designText slot "HIGHSHELF")
  | .dsgnPeaking slot => some (designText slot "PEAKING")
  | .dsgnLowpass slot => some (designText slot "LOWPASS")
  | .dsgnHighpass slot => some (designText slot "HIGHPASS")
  | .dsgnOther slot type => some (designText slot (toString type.toNat))
  | .updset _ => none
  | .setmute b => some (if b then "SETMUTE 1" else "SETMUTE 0")
  | .connect _ => none
  | .process _ _ _ => none
  | .disconnect => some "DISCONNECT"

end Sys2Proof.Machine
end

