-- ==== Sys2Proof/Tests/Slice0.lean ====
section
/-! SUPPORT. Tests: what WellFormed refuses; words written out from 30_encoding.md and decoded; the vectors of
95_test_vectors.md, one step each; and, for every statement with hypotheses, a witness that meets them.
Expected values come from the spec or from hand calculation on it. -/

namespace Sys2Proof.Tests

open Sys2Proof Sys2Proof.Machine

set_option Elab.async false

/-! ## Fixtures -/

/-- A small configuration: the numbers of `CFG0` (00_scope.md R7), blocks of two frames. -/
def testCfg : Cfg :=
  { sr := 0x40E7700000000000#64, blockLen := 2, kShape := 0x3FD657184AE74487#64
    rangeBass := 0x4028000000000000#64, rangeMid := 0x4028000000000000#64
    rangeTreble := 0x4028000000000000#64, rangePresence := 0x4028000000000000#64
    qMid := 0x3FF0000000000000#64, fns := 0, shapeMeetsR6 := true }

/-- The coefficient set of V-Q1. -/
def testCoefs : Coefs :=
  ⟨0x3FE0000000000000#64, 0x3FD0000000000000#64, 0x3FC0000000000000#64, 0xBFE0000000000000#64,
   0x3FD0000000000000#64⟩

/-- A connection between blocks, with V-Q1's coefficients in every slot and 0.25 in its accumulator. -/
def testState : State :=
  { State.resetWith testCfg 0x3FD0000000000000#64 with
    coef := Vector.replicate 11 testCoefs
    amount := 0x0000000000000000#64 }

/-- The same inside a block of two input channels at 0 and 16, output channels at 32 and 48. -/
def testBlock : State := { testState with run := true, ins := [0, 16], outs := #v[32, 48] }

/-- The same with 1.0 at both frames of input channel 0 and 0.5 at those of channel 1. -/
def testLoaded : State :=
  { testBlock with
    mem := writeSamples (writeSamples [] 0 [0x3FF0000000000000#64, 0x3FF0000000000000#64]) 16
      [0x3FE0000000000000#64, 0x3FE0000000000000#64] }

/-- Every stage enabled. -/
def testSnap : Snapshot :=
  { snapshotDefault with
    thickenEnabled := true, thickenAmount := 0x3FF0000000000000#64, chugEnabled := true
    chugAmount := 0x3FF0000000000000#64, lofiEnabled := true }

/-- A field of the next state, or of the state after reset where there is none. -/
def after (o : Host.Outcome State Fault Refusal) : State :=
  match o with
  | .next s => s
  | _ => State.reset

/-! ## WellFormed refuses -/

theorem test_wellFormed_dsgnOther_named_type : (Instr.dsgnOther 0 4#8).wellFormed = false := by decide

theorem test_wellFormed_dsgnOther_first_other : (Instr.dsgnOther 0 5#8).wellFormed = true := by decide

theorem test_wellFormed_connect_ok : (Instr.connect testCfg).wellFormed = true := by decide +kernel

/-- SR of 0 and of +inf, no frames, K_SHAPE of -1, a range of -1, Q_MID of NaN, a ShapeAmount that breaks
its constraint (00_scope.md R6, 93_implementation_defined.md U7). -/
theorem test_wellFormed_connect_bad :
    [{ testCfg with sr := 0x0000000000000000#64 }, { testCfg with sr := 0x7FF0000000000000#64 },
     { testCfg with blockLen := 0 }, { testCfg with kShape := 0xBFF0000000000000#64 },
     { testCfg with rangeBass := 0xBFF0000000000000#64 }, { testCfg with rangeMid := 0x7FF0000000000000#64 },
     { testCfg with rangeTreble := 0xBFF0000000000000#64 },
     { testCfg with rangePresence := 0xBFF0000000000000#64 },
     { testCfg with qMid := 0x7FF8000000000000#64 }, { testCfg with shapeMeetsR6 := false }].all
      (fun c => !(Instr.connect c).wellFormed) = true := by decide +kernel

/-! ## Decoding -/

/-- Each descriptor row's word, from the fields of R71 to R76: op, idx, pred, rsv, or op, idx, type. -/
theorem test_decode_each_descriptor :
    [0b0000000000000000#16, 0b0001000000000000#16, 0b0010000000100000#16, 0b0011000001000000#16,
     0b0100000001100000#16, 0b0101000010000000#16, 0b0110101000100000#16, 0b0111000010000000#16,
     0b1000000000000000#16, 0b1001000001100000#16, 0b1101001100000000#16, 0b1101010000000001#16,
     0b1101010100000010#16, 0b1101011000000011#16, 0b1101101000000100#16, 0b1101000111111111#16].map
      (fun w => (decodeDescriptor w).toOption) =
    [some .endPass, some (.ldin .always), some (.preg .ncl), some (.shape .thk), some (.thick .chg),
     some (.chug .lofi), some (.bq 10 .ncl), some (.trim .lofi), some (.outg .always), some (.stout .chg),
     some (.dsgnLowshelf 3), some (.dsgnHighshelf 4), some (.dsgnPeaking 5), some (.dsgnLowpass 6),
     some (.dsgnHighpass 10), some (.dsgnOther 1 0xFF#8)] := by decide +kernel

/-- The reserved words of R83 and of 95_test_vectors.md section 2.1. -/
theorem test_decode_reserved :
    [0x0100#16, 0x0001, 0x1001, 0x1100, 0x60A0, 0x60C0, 0x60E0, 0x6B00, 0x6F00, 0x6001, 0xDB02, 0xDF00,
     0xA000, 0xB000, 0xC000, 0xE000, 0xF000].all
      (fun w => (decodeDescriptor w).toOption.isNone) = true := by decide +kernel

/-- The ROMs read as the assembler column of R77 and R78 says. -/
theorem test_decode_roms :
    chainRomWords.map (fun w => (decodeDescriptor w).toOption) = Instr.chain.map some ∧
    designerRomWords.map (fun w => (decodeDescriptor w).toOption) = Instr.design.map some := by
  decide +kernel

/-- The listing's text (R77, R78, R86). -/
theorem test_asmText :
    [Instr.endPass, .ldin .always, .shape .ncl, .thick .thk, .chug .chg, .bq 10 .lofi, .trim .lofi,
     .dsgnHighpass 10, .dsgnOther 5 0x7F#8, .setmute true].map asmText =
    [some "END", some "LDIN", some "SHAPE ?NCL", some "THICK ?THK", some "CHUG ?CHG", some "BQ 10 ?LOFI",
     some "TRIM ?LOFI", some "DSGN 10, HIGHPASS", some "DSGN 5, 127", some "SETMUTE 1"] := by
  decide +kernel

/-- The messages of 95_test_vectors.md section 2.1. -/
theorem test_decode_messages :
    decodeMessage [0x0200000000000001#64] = .ok (.setmute true) ∧
    decodeMessage [0x0200000000000000#64] = .ok (.setmute false) ∧
    decodeMessage (0x0100000000000000#64 :: List.replicate 32 0x0123456789ABCDEF#64) =
      .ok (.updset SettingsMsg.empty) ∧
    decodeMessage ([0x0100000000000020#64, 9, 9, 9, 9, 9, 0xFFFFFFFFFFFFFFFE#64] ++
      List.replicate 26 9#64) = .ok (.updset { SettingsMsg.empty with cleanse := some false }) := by
  decide +kernel

/-- The malformed ones, each by its name. -/
theorem test_decode_malformed :
    decodeMessage [] = .error .wrongLength ∧
    decodeMessage [0x0200000000000002#64] = .error .headerNotZero ∧
    decodeMessage [0x0300000000000000#64] = .error .badMsgop ∧
    decodeMessage (0x0100000100000000#64 :: List.replicate 32 0#64) = .error .headerNotZero ∧
    decodeMessage (0x0100000000000000#64 :: List.replicate 31 0#64) = .error .wrongLength ∧
    decodeMessage [0x0200000000000001#64, 0#64] = .error .wrongLength := by decide +kernel

/-- Every field of `UPDSET` at the index of 10_state.md R27: payload word `i` is `2 i + 1`, all present. -/
theorem test_decode_updset_indices :
    decodeMessage (0x01000000FFFFFFFF#64 :: (List.range 32).map (fun i => BitVec.ofNat 64 (2 * i + 1))) =
    .ok (.updset
      { inputGain := some 1, inputTrim := some 3, drive := some 5, punish := some true
        plus10db := some true, cleanse := some true, thickenEnabled := some true
        thickenAmount := some 15, chugEnabled := some true, chugAmount := some 19, lowBoost := some true
        bass := some 23, mid := some 25, treble := some 27, presence := some 29, peqEnabled := some true
        peq0Freq := some 33, peq0Gain := some 35, peq0Q := some 37, peq1Freq := some 39
        peq1Gain := some 41, peq1Q := some 43, peq2Freq := some 45, peq2Gain := some 47
        peq2Q := some 49, peq3Freq := some 51, peq3Gain := some 53, peq3Q := some 55
        lofiEnabled := some true, outputGain := some 59, masterVolume := some 61
        outputTrim := some 63 }) := by decide +kernel

/-- Each Bool field is read at its own index: present bits of the nine Bools but one, word 1, at a time. -/
theorem test_decode_updset_bools :
    [3, 4, 5, 6, 8, 10, 15, 28].map (fun i =>
      (decodeMessage (BitVec.ofNat 64 (2 ^ 56 + 2 ^ i) :: List.replicate 32 1#64)).toOption) =
    [{ SettingsMsg.empty with punish := some true }, { SettingsMsg.empty with plus10db := some true },
     { SettingsMsg.empty with cleanse := some true },
     { SettingsMsg.empty with thickenEnabled := some true },
     { SettingsMsg.empty with chugEnabled := some true }, { SettingsMsg.empty with lowBoost := some true },
     { SettingsMsg.empty with peqEnabled := some true },
     { SettingsMsg.empty with lofiEnabled := some true }].map (fun m => some (.updset m)) := by
  decide +kernel

theorem test_decodeTableWord :
    decodeTableWord 16 0x6A80 = some (.bq 10 .lofi) ∧ decodeTableWord 16 0xA000 = none ∧
    decodeTableWord 64 0x0200000000000001 = some (.setmute true) ∧
    decodeTableWord 2112 0x0100000000000000 = some (.updset SettingsMsg.empty) ∧
    decodeTableWord 0 0 = none := by decide +kernel

theorem test_withFetchWord_descriptor :
    step (State.reset.withFetchWord 16 0x6A80) =
      exec (.bq 10 .lofi) (State.reset.withFetchWord 16 0x6A80) := rfl

theorem test_withFetchWord_message :
    step (State.reset.withFetchWord 64 0x0200000000000001) =
      exec (.setmute true) { State.reset with inbox := [] } := rfl

/-! ## Constants -/

/-- The printed constants are the correctly rounded quotients of their decimals (00_scope.md R5). -/
theorem test_constants_decimal :
    [(Const.shelfSlope, 707, 1000), (Const.thDev, 15, 100), (Const.envKeep, 995, 1000),
     (Const.envIn, 5, 1000), (Const.thGate, 1, 100), (Const.thAttack, 3, 10000),
     (Const.thRelease, 1, 100), (Const.thMix, 25, 10), (Const.chugThresh, 15, 10),
     (Const.nyquistShare, 49, 100), (Const.peqQMin, 1, 10), (Const.lofiQ, 7, 10),
     (Const.lofiTrim, 8, 10)].all (fun (c, n, d) => c == Fp.div (Fp.ofNat n) (Fp.ofNat d)) = true := by
  decide +kernel

theorem test_constants_integer :
    [(Const.one, 1), (Const.two, 2), (Const.four, 4), (Const.five, 5), (Const.forty, 40),
     (Const.shapeC, 3), (Const.thPmax, 1500), (Const.lowBoostF, 80), (Const.lowBoostDb, 8),
     (Const.bassF, 200), (Const.midF, 1000), (Const.trebleF, 4000), (Const.presenceF, 6000),
     (Const.peqFMin, 20), (Const.peqFMax, 20000), (Const.peqGMax, 12), (Const.peqQMax, 10),
     (Const.lofiLpF, 2000), (Const.lofiHpF, 300), (Const.peq0FreqDefault, 100),
     (Const.peq1FreqDefault, 500), (Const.peq2FreqDefault, 2000), (Const.peq3FreqDefault, 8000),
     (Const.srDefault, 48000)].all (fun (c, n) => c == Fp.ofNat n) = true ∧
    Const.peqGMin = Fp.neg Const.peqGMax ∧ Const.minusTwo = Fp.neg Const.two := by decide +kernel

/-! ## One step each -/

/-- R74, each enable alone: NCL is not `cleanse`, and THK, CHG and LOFI each follow their own field. -/
theorem test_predicates :
    let preds : List Pred := [.always, .ncl, .thk, .chg, .lofi]
    preds.map (predHolds snapshotDefault) = [true, true, false, false, false] ∧
    preds.map (predHolds { snapshotDefault with cleanse := true }) =
      [true, false, false, false, false] ∧
    preds.map (predHolds { snapshotDefault with thickenEnabled := true }) =
      [true, true, true, false, false] ∧
    preds.map (predHolds { snapshotDefault with chugEnabled := true }) =
      [true, true, false, true, false] ∧
    preds.map (predHolds { snapshotDefault with lofiEnabled := true }) =
      [true, true, false, false, true] := by decide +kernel

theorem test_ldin_loads_channel_and_falls_back :
    (after (exec (.ldin .always) { testLoaded with cc := 1 })).acc = 0x3FE0000000000000#64 ∧
    (after (exec (.ldin .always) { testLoaded with cc := 1, ins := [0] })).acc = 0x3FF0000000000000#64 ∧
    (after (exec (.ldin .always) { testLoaded with ins := [] })).acc = 0x0000000000000000#64 := by
  decide +kernel

/-- V-B2. -/
theorem test_preg :
    (after (exec (.preg .always)
      { testBlock with snap := { snapshotDefault with inputTrim := 0x4000000000000000#64 } })).acc =
      0x3FE0000000000000#64 := by decide +kernel

/-- V-B3: the products are taken left to right. -/
theorem test_outg :
    (after (exec (.outg .always) { testBlock with
      acc := 0x3FD3333333333333#64
      snap := { snapshotDefault with
        outputGain := 0x4000000000000000#64, masterVolume := 0x3FE0000000000000#64, outputTrim := 0x3FF8000000000000#64 } })).acc = 0x3FDCCCCCCCCCCCCC#64 := by decide +kernel

/-- V-B5: mute is `+0.0` even of a NaN. -/
theorem test_outg_muted :
    (after (exec (.outg .always) { testBlock with acc := 0x7FF8000000000000#64, muted := true })).acc =
      0x0000000000000000#64 := by decide +kernel

/-- V-B4: the eight bytes of 0.25 from 48 + 8, the lowest first; `acc` unchanged. -/
theorem test_stout :
    let t := after (exec (.stout .always) { testBlock with cc := 1, nn := 1 })
    t.mem = [(62, 0xD0#8), (63, 0x3F#8)] ∧ t.acc = 0x3FD0000000000000#64 := by decide +kernel

/-- V-S2, V-S3, V-S4, V-S6. -/
theorem test_shape :
    [(0x3FE0000000000000#64, 0x3FF0000000000000#64), (0xBFE0000000000000#64, 0x3FF0000000000000#64),
     (0x3FF0000000000000#64, 0x4024000000000000#64), (0x3F847AE147AE147B#64, 0x4049000000000000#64)].map
      (fun (x, a) => (after (exec (.shape .ncl) { testBlock with acc := x, amount := a })).acc) =
    [0x3FC889F895C2CBC1#64, 0xBFC889F895C2CBC1#64, 0x3FD61979A22109DF#64, 0x3FAA02E3A8FC904D#64] := by
  decide +kernel

/-- V-S1b, V-S1c, V-S5b. -/
theorem test_shape_bypass_and_zero :
    shaper testCfg.kShape 0x7FF8000000000001#64 0#64 = 0x7FF8000000000001#64 ∧
    shaper testCfg.kShape 0x3FE6666666666666#64 0x8000000000000000#64 = 0x3FE6666666666666#64 ∧
    shaper testCfg.kShape 0x8000000000000000#64 0x4024000000000000#64 = 0x8000000000000000#64 := by
  decide +kernel

/-- V-T1 at n = 400: the fourth period of 100 locks, the phase and the sub-gain start. -/
theorem test_thick_lock :
    let t := (after (exec (.thick .thk) { testBlock with
      acc := 0x3FE0000000000000#64, snap := testSnap
      chans := Vector.replicate 2 { channelReset with th := { thickenReset with
        last := 0xBFE0000000000000#64, since := 99, hidx := 3, hcount := 3
        hist := #v[0x4059000000000000#64, 0x4059000000000000#64, 0x4059000000000000#64, 0#64]
        env := 0x3FDBB0E19DAFA93D#64 } } })).chans[0].th
    t.since = 0 ∧ t.hist = Vector.replicate 4 0x4059000000000000#64 ∧ t.hidx = 0 ∧ t.hcount = 4 ∧
    t.locked = 0x4059000000000000#64 ∧ t.phase = 0x3FA015BF9217271A#64 ∧ t.env = 0x3FDBB6659B9E248D#64 ∧
    t.sub = 0x3F33A92A30553261#64 := by decide +kernel

/-- V-T5: candidates of 39, 40, 1499, 1500; against a lock of 100, 115 and 85 stay, 116 and 84 clear;
a ring of 100, 100, 100, 140 does not lock, one of 100, 110, 105, 95 locks at 102.5. -/
theorem test_thick_corners :
    [39, 40, 1499, 1500].map (fun n => periodAccepted (Fp.ofNat n)) = [false, true, true, false] ∧
    [115, 116, 85, 84].map (fun n =>
      disqualifies { thickenReset with locked := 0x4059000000000000#64 } (Fp.ofNat n)) =
      [false, true, false, true] ∧
    (evaluateLock { thickenReset with
      hcount := 4, hist := #v[Fp.ofNat 100, Fp.ofNat 100, Fp.ofNat 100, Fp.ofNat 140] }).locked = 0#64 ∧
    (evaluateLock { thickenReset with
      hcount := 4, hist := #v[Fp.ofNat 100, Fp.ofNat 110, Fp.ofNat 105, Fp.ofNat 95] }).locked =
      0x4059A00000000000#64 := by decide +kernel

/-- V-C1 step 1 and V-C2's last: the envelope and the output. -/
theorem test_chug :
    let s := { testBlock with acc := 0x3FF0000000000000#64, snap := testSnap }
    (after (exec (.chug .chg) s)).acc = 0x4013E147AE147AE2#64 ∧
    (after (exec (.chug .chg) s)).chans[0].ch.env = 0x3F747AE147AE147B#64 := by decide +kernel

/-- V-Q1 at n = 1 of slot 9, channel 1: `y = 0.5`, the state becomes (0, 1, 0.5, 0.5); channel 0 and the
other slots keep theirs. -/
theorem test_bq :
    let f : FilterState := ⟨0x3FF0000000000000#64, 0#64, 0x3FE0000000000000#64, 0#64⟩
    let t := after (exec (.bq 9 .always) { testBlock with
      acc := 0#64, cc := 1, chans := Vector.replicate 2 { channelReset with fs := Vector.replicate 11 f } })
    t.acc = 0x3FE0000000000000#64 ∧ t.spc = 1 ∧
    t.chans[1].fs[9] = ⟨0#64, 0x3FF0000000000000#64, 0x3FE0000000000000#64, 0x3FE0000000000000#64⟩ ∧
    t.chans[1].fs[8] = f ∧ t.chans[0].fs[9] = f := by decide +kernel

/-- V-P4. -/
theorem test_trim :
    (after (exec (.trim .always) { testBlock with acc := 0x3FE0000000000000#64 })).acc =
      0x3FD999999999999A#64 := by decide +kernel

/-- The end of channel 0 goes on with channel 1; the end of channel 1 ends the block. -/
theorem test_endPass :
    (after (exec .endPass { testBlock with nn := 1, spc := 19 })).cc = 1 ∧
    (after (exec .endPass { testBlock with nn := 1, spc := 19 })).nn = 0 ∧
    (after (exec .endPass { testBlock with nn := 1, cc := 1 })).run = false := by decide +kernel

/-- V-D1, from the A, cw and sw a C library gives, as 95_test_vectors.md says of its values. -/
theorem test_designTerms_peaking :
    normalise (peakingTerms 0x3FF699C0F7E86E10#64 0x3FEFFF4C54F76E1C#64 (alphaQ 0x3F8ACEB7C72CA0A9#64 Const.one)) =
      ⟨0x3FF012CD1D134A2A#64, 0xBFFFD9851C394F91#64, 0x3FEF8ED5AC1B4053#64, 0xBFFFD9851C394F91#64, 0x3FEFB46FE641D4A6#64⟩ := by decide +kernel

/-- V-D3. -/
theorem test_designTerms_lowshelf :
    normalise (lowshelfTerms 0x3FF95BB8F6D46053#64 0x3FEFFF8D0306FA50#64 (alphaShelf 0x3FF95BB8F6D46053#64 0x3F85723B127AFA6A#64)) =
      ⟨0x3FF01101FC6B0097#64, 0xBFFFC5B677F0EF9E#64, 0x3FEF6AD2E29F1C7A#64, 0xBFFFC5ECED8555BA#64, 0x3FEF8C69F04C516F#64⟩ := by decide +kernel

/-- V-D7. -/
theorem test_designTerms_highshelf :
    normalise (highshelfTerms 0x3FF699C0F7E86E10#64 0x3FEBB67AE8584CAB#64 (alphaShelf 0x3FF699C0F7E86E10#64 0x3FDFFFFFFFFFFFFF#64)) =
      ⟨0x3FFBDF37BA9F37B3#64, 0xC00274F9A8E052E1#64, 0x3FE9FDA5D5CAD264#64, 0xBFF183C5C5915DFE#64, 0x3FD5DF7465556489#64⟩ := by decide +kernel

/-- V-D9 and V-D10. -/
theorem test_designTerms_lofi :
    normalise (lowpassTerms 0x3FEEE8DD4748BF15#64 (alphaQ 0x3FD0907DC1930690#64 Const.lofiQ)) =
      ⟨0x3F8D72A97F9066C2#64, 0x3F9D72A97F9066C2#64, 0x3F8D72A97F9066C2#64, 0xBFFA1640483E40AD#64, 0x3FE603AB287587C5#64⟩ ∧
    normalise (highpassTerms 0x3FEFF9AF2BFBC297#64 (alphaQ 0x3FA419DCD176E0F7#64 Const.lofiQ)) =
      ⟨0x3FEF1D77FB70ACC7#64, 0xBFFF1D77FB70ACC7#64, 0x3FEF1D77FB70ACC7#64, 0xBFFF1A659EAD9F81#64, 0x3FEE4114B0677416#64⟩ := by decide +kernel

/-- Each `DSGN` writes its slot with its own type; 5..255 as PEAKING. -/
theorem test_dsgn_types (s : State) :
    (after (exec (.dsgnLowshelf 3) s)).coef[3] = slotCoefs s.snap s.cfg 3 .lowshelf ∧
    (after (exec (.dsgnHighshelf 3) s)).coef[3] = slotCoefs s.snap s.cfg 3 .highshelf ∧
    (after (exec (.dsgnPeaking 3) s)).coef[3] = slotCoefs s.snap s.cfg 3 .peaking ∧
    (after (exec (.dsgnLowpass 3) s)).coef[3] = slotCoefs s.snap s.cfg 3 .lowpass ∧
    (after (exec (.dsgnHighpass 3) s)).coef[3] = slotCoefs s.snap s.cfg 3 .highpass ∧
    (after (exec (.dsgnOther 3 0x7F#8) s)).coef[3] = slotCoefs s.snap s.cfg 3 .peaking := by
  simp [exec, execDsgnLowshelf, execDsgnHighshelf, execDsgnPeaking, execDsgnLowpass, execDsgnHighpass,
    execDsgnOther, after, designSlot, State.setCoef, State.advance]

/-- V-P2, slots 0 to 10, and slot 5 with the PEQ off. -/
def paramSnap : Snapshot :=
  { snapshotDefault with
    peqEnabled := true, peq0Freq := Fp.ofNat 5, peq0Q := 0#64, peq0Gain := Fp.ofNat 20
    peq1Freq := Fp.ofNat 30000, peq1Q := Fp.ofNat 50, peq1Gain := Fp.neg (Fp.ofNat 99)
    bass := Fp.ofNat 10, mid := 0#64, treble := 0x401E000000000000#64, lowBoost := true }

theorem test_slotParam :
    (List.finRange 11).map (slotParam paramSnap testCfg) =
    [⟨.lowshelf, Fp.ofNat 80, Const.one, Fp.ofNat 8⟩, ⟨.lowshelf, Fp.ofNat 200, Const.one, Fp.ofNat 12⟩,
     ⟨.peaking, Fp.ofNat 1000, Const.one, Fp.neg (Fp.ofNat 12)⟩,
     ⟨.highshelf, Fp.ofNat 4000, Const.one, Fp.ofNat 6⟩, ⟨.highshelf, Fp.ofNat 6000, Const.one, 0#64⟩,
     ⟨.peaking, Fp.ofNat 20, Const.peqQMin, Fp.ofNat 12⟩,
     ⟨.peaking, Fp.ofNat 20000, Fp.ofNat 10, Fp.neg (Fp.ofNat 12)⟩,
     ⟨.peaking, Fp.ofNat 2000, Const.one, 0#64⟩, ⟨.peaking, Fp.ofNat 8000, Const.one, 0#64⟩,
     ⟨.lowpass, Fp.ofNat 2000, Const.lofiQ, 0#64⟩, ⟨.highpass, Fp.ofNat 300, Const.lofiQ, 0#64⟩] := by
  decide +kernel

/-- V-P3: the ceilings at 22050 and 8000 Hz, and a clamped fixed frequency. -/
theorem test_fCeil :
    fCeil { testCfg with sr := Fp.ofNat 22050 } = 0x40C51A4000000000#64 ∧
    (slotParam paramSnap { testCfg with sr := Fp.ofNat 8000 } 4).f = Fp.ofNat 3920 ∧
    fCeil { testCfg with sr := Fp.ofNat 44100 } = Fp.ofNat 20000 := by decide +kernel

/-- V-B6: NaN and infinite fields take their defaults, finite ones are kept. -/
theorem test_resolve :
    let m := { SettingsMsg.empty with
      bass := some 0x7FF8000000000000#64, inputGain := some 0xFFF0000000000000#64, mid := some (Fp.ofNat 9) }
    (resolve m).bass = Const.five ∧ (resolve m).inputGain = Const.one ∧ (resolve m).mid = Fp.ofNat 9 := by
  decide +kernel

theorem test_updset_replaces :
    (after (exec (.updset SettingsMsg.empty)
      { testState with pendSnap := some (fullMessage testSnap) })).pendSnap = some SettingsMsg.empty := by
  decide +kernel

theorem test_setmute_waits_for_the_boundary :
    (after (exec (.setmute true) testState)).pendMute = some true ∧
    (after (exec (.setmute true) testState)).muted = false := by decide +kernel

theorem test_process_applies_the_mute_and_begins :
    let t := after (exec (.process [0] 16 32) { testState with pendMute := some true })
    t.muted = true ∧ t.pendMute = none ∧ t.run = true ∧ t.outs = #v[16, 32] := by decide +kernel

theorem test_process_refused :
    exec (.process [0] 8 32) testState = .refused .buffersOverlap ∧
    exec (.process [0] 16 24) testState = .refused .buffersOverlap ∧
    exec (.process [0] 16 32) testBlock = .refused .blockInProgress ∧
    exec (.process [0] 16 32) { testState with conn := false } = .refused .notConnected :=
  ⟨rfl, rfl, rfl, rfl⟩

theorem test_connect :
    (after (exec (.connect testCfg) { testBlock with conn := false, muted := true })).muted = false ∧
    (after (exec (.connect testCfg) { testBlock with conn := false })).run = false := by decide +kernel

theorem test_disconnect (s : State) : (after (exec .disconnect s)).conn = false := rfl

/-! ## Witnesses for the statements' hypotheses, in their order -/

theorem witness_DecodeOfEncodeGivesBackTheInstruction :
    (Instr.dsgnOther 10 255#8).wellFormed = true ∧ (Instr.connect testCfg).wellFormed = true := by
  decide +kernel

theorem witness_LegalDescriptorsHaveOneMeaning : decodeDescriptor 0x6A80#16 = .ok (.bq 10 .lofi) := by
  decide +kernel

/-- A `SETMUTE` header; an `UPDSET` header whose mask is its ends, and 32 words. -/
theorem witness_MessagesAreExactlyTheWellFormedOnes :
    let mute : Word64 := 0x0200000000000001#64
    let settings : Word64 := 0x0100000080000001#64
    (mute.extractLsb' 56 8).toNat = 2 ∧ (mute.extractLsb' 1 55).toNat = 0 ∧
    (settings.extractLsb' 56 8).toNat = 1 ∧ (settings.extractLsb' 32 24).toNat = 0 ∧
    (List.replicate 32 (0xFFFFFFFFFFFFFFFF#64 : Word64)).length = 32 := by decide +kernel

theorem witness_StepRunsTheDescriptorAtSpc :
    testBlock.conn = true ∧ testBlock.run = true ∧ testBlock.chainRom[testBlock.spc]? = some 0x1000#16 ∧
    decodeDescriptor 0x1000#16 = .ok (.ldin .always) := by decide +kernel

/-- Each clause: a message that decodes, one that does not, a signal, samples (of which there is a first,
with bytes just outside them), nothing. -/
theorem witness_StepBetweenBlocksTakesTheHostsNextAction :
    testState.run = false ∧
    step { testState with inbox := [.message [0x0200000000000001#64]] } =
      exec (.setmute true) testState ∧
    step { testState with inbox := [.message [0x0200000000000002#64]] } = .next testState ∧
    step { testState with inbox := [.signal .disconnect] } = exec .disconnect testState ∧
    step { testState with inbox := [.store 8 [Const.one]] } =
      .next { testState with mem := writeSamples [] 8 [Const.one] } ∧
    testState.mem.wf = true ∧ 0 < [Const.one].length ∧ 7 < 8 ∧ 8 + 8 * [Const.one].length ≤ 16 ∧
    step testState = .next testState :=
  ⟨rfl, rfl, rfl, rfl, rfl, rfl, by decide, by decide, by decide, rfl⟩

theorem witness_HostActionsWaitForTheBlock :
    testBlock.conn = true ∧ testBlock.run = true ∧
    step testBlock = .next { testBlock with acc := readNum [] 0, spc := 1 } := ⟨rfl, rfl, rfl⟩

/-- Predicate false and true; an input channel of its own, channel 0's, none. -/
theorem witness_LdinLoadsTheInputSample :
    predHolds testBlock.snap .lofi = false ∧ predHolds testBlock.snap .always = true ∧
    testBlock.cc.val < testBlock.ins.length ∧ [0].length ≤ (1 : Chan).val ∧ 0 < [0].length ∧
    testState.ins = [] := by decide +kernel

/-- Both predicates; the addresses next to the eight bytes stored at 32. -/
theorem witness_StoutWritesOneSample :
    testLoaded.mem.wf = true ∧ predHolds testBlock.snap .lofi = false ∧
    predHolds testBlock.snap .always = true ∧
    31 < testLoaded.outs[testLoaded.cc] + 8 * testLoaded.nn ∧
    testLoaded.outs[testLoaded.cc] + 8 * testLoaded.nn + 8 ≤ 40 := by decide +kernel

/-- Each of the three ends, where the clauses meet: frame 0 and frame 1 of two. -/
theorem witness_EndMovesToTheNextFrameOrEndsTheBlock :
    testBlock.nn + 1 < testBlock.cfg.blockLen ∧ testBlock.cc = 0 ∧
    { testBlock with nn := 1 }.cfg.blockLen ≤ { testBlock with nn := 1 }.nn + 1 ∧
    { testBlock with cc := 1 }.cc = 1 := by decide +kernel

theorem witness_BqFiltersTheAccumulator :
    predHolds testBlock.snap .lofi = false ∧ predHolds testBlock.snap .always = true ∧
    (1 : Slot) ≠ 0 ∧ (1 : Chan) ≠ testBlock.cc := by decide +kernel

theorem witness_ThickFollowsItsPseudocode :
    predHolds testBlock.snap .thk = false ∧ predHolds testSnap .thk = true := by decide +kernel

theorem witness_ChugFollowsItsFormulas :
    predHolds testBlock.snap .chg = false ∧ predHolds testSnap .chg = true := by decide +kernel

theorem witness_DsgnWritesOneCoefficientSet : (10 : Slot) ≠ 0 := by decide

theorem witness_UnrecognizedTypesBehaveAsPeaking :
    5 ≤ (5#8).toNat ∧ 5 ≤ (255#8).toNat ∧ 0xD000#16 ∈ designerRomWords := by decide

theorem witness_PeakingAtZeroGainHasMatchingCoefficients :
    let t := peakingTerms Const.one 0x3FE0000000000000#64 0x3FD0000000000000#64
    Fp.finite t.a0 = true ∧ Fp.isZero t.a0 = false := by decide +kernel

theorem witness_ShelvesAtZeroGainHaveMatchingCoefficients :
    let cw : NUM := 0xBFE0000000000000#64
    let l := lowshelfTerms Const.one cw 0x3FD0000000000000#64
    let u := highshelfTerms Const.one cw 0x3FD0000000000000#64
    Fp.finite cw = true ∧ Fp.isZero cw = false ∧ Fp.finite l.a0 = true ∧ Fp.isZero l.a0 = false ∧
    Fp.finite u.a0 = true ∧ Fp.isZero u.a0 = false := by decide +kernel

/-- At 48000 Hz and at the lowest rate the statement takes in; slots at the ends of those whose gain it
says finite. -/
theorem witness_ParamMeetsTheDesignersPreconditions :
    let low : NUM := 0x0010000000000000#64
    snapshotFinite paramSnap = true ∧ cfgValid testCfg = true ∧ Fp.le low testCfg.sr = true ∧
    cfgValid { testCfg with sr := low } = true ∧ Fp.le low low = true ∧
    ((0 : Slot) = 0 ∨ 5 ≤ (0 : Slot).val) ∧ ((5 : Slot) = 0 ∨ 5 ≤ (5 : Slot).val) := by
  decide +kernel

theorem witness_ParamFollowsItsTable :
    testCfg.sr = 0x40E7700000000000#64 ∧
    { testCfg with sr := Fp.ofNat 44100 }.sr = 0x40E5888000000000#64 := by decide +kernel

/-- Ranges 12 and 0; sliders at 0 and at 10. -/
theorem witness_SliderEndsAreTheRange :
    let low : NUM := 0x0000000000000000#64
    let high : NUM := 0x4024000000000000#64
    nonnegative testCfg.rangeBass = true ∧ nonnegative low = true ∧
    Fp.le low low = true ∧ Fp.le low high = true ∧ Fp.le high high = true := by decide +kernel

theorem witness_ResolveKeepsFiniteFieldsAndDefaultsTheRest :
    snapshotFinite testSnap = true := by decide +kernel

theorem witness_MessagesArePostedInTheMailbox :
    testState.conn = true ∧ { testState with conn := false }.conn = false := by decide +kernel

theorem witness_ConnectResetsEverything :
    cfgValid testCfg = true ∧ testState.chainRom = chainRomWords ∧
    testState.designerRom = designerRomWords := by decide +kernel

/-- With nothing pending and with a snapshot pending. -/
theorem witness_ProcessAppliesWhatIsPendingAndBeginsTheBlock :
    testState.conn = true ∧ testState.run = false ∧ testState.chainRom = chainRomWords ∧
    testState.designerRom = designerRomWords ∧ buffersDisjoint testState.cfg.blockLen [0] 16 32 = true ∧
    testState.pendSnap = none ∧
    { testState with pendSnap := some (fullMessage testSnap) }.pendSnap = some (fullMessage testSnap) := by
  decide +kernel

/-- Overlapping buffers; a bad configuration; a reserved word in each ROM. -/
theorem witness_MisuseByTheHostIsRefused :
    testState.conn = true ∧ testState.run = false ∧
    buffersDisjoint testState.cfg.blockLen [0] 15 32 = false ∧
    cfgValid { testCfg with blockLen := 0 } = false ∧
    { testCfg with shapeMeetsR6 := false }.shapeMeetsR6 = false ∧
    0xA000#16 ∈ ({ testState with chainRom := [0xA000#16] }).chainRom ∧
    0x6B00#16 ∈ ({ testState with designerRom := [0x6B00#16] }).designerRom ∧
    ¬ legalDescriptor 0xA000#16 ∧ ¬ legalDescriptor 0x6B00#16 ∧ cfgValid testCfg = true ∧
    buffersDisjoint testState.cfg.blockLen [0] 16 32 = true := by
  refine ⟨rfl, rfl, by decide +kernel, by decide +kernel, rfl, by decide, by decide, ?_, ?_, by decide +kernel,
    by decide +kernel⟩ <;> unfold legalDescriptor <;> decide

theorem witness_MailboxIsEquivalentToAQueue :
    testState.designerRom = designerRomWords ∧ testState.pendSnap = none ∧ testState.pendMute = none := by
  decide +kernel

theorem witness_SnapshotAndMuteCommute :
    let s := { testState with pendSnap := some SettingsMsg.empty, pendMute := some true }
    s.pendSnap = some SettingsMsg.empty ∧ s.pendMute = some true := by decide +kernel

theorem witness_DescriptorsLeaveTheRestAlone :
    stagePred (.bq 9 .lofi) = some .lofi ∧ predHolds testBlock.snap .lofi = false ∧
    advances (.stout .always) = true ∧ advances (.dsgnPeaking 3) = true ∧ (1 : Chan) ≠ testBlock.cc ∧
    (stagePred (.ldin .always)).isSome = true ∧ (designOf (.dsgnPeaking 3)).isSome = true := by decide

theorem witness_StateFilesAreWrittenByTheirOwnersOnly :
    exec (.setmute true) testState = .next { testState with pendMute := some true } := rfl

theorem witness_OtherChannelIsInvisible :
    advances (.bq 3 .always) = true ∧ (1 : Chan) ≠ testBlock.cc ∧
    exec (.bq 3 .always) testBlock = .next (staged .always (opBq 3) testBlock) := ⟨rfl, by decide, rfl⟩

theorem witness_SilentBiquadStaysSilent :
    coefsFinite testCoefs = true ∧ filterSilent ⟨0#64, 0x8000000000000000#64, 0#64, 0#64⟩ = true ∧
    Fp.isZero 0x8000000000000000#64 = true := by decide +kernel

theorem witness_NaNIsStickyInABiquad :
    [Const.one, 0#64, 0#64, 0#64, 0x7FF8000000000000#64, Const.one, 0#64, 0#64, 0#64, 0#64].any Fp.isNaN =
      true := by decide +kernel

theorem witness_ShaperBypassesAtAmountZero :
    Fp.isZero 0x8000000000000000#64 = true ∧ Fp.isNaN 0x7FF8000000000000#64 = true := by decide +kernel

theorem witness_NoDriveMeansNoShaping :
    cfgValid testState.cfg = true ∧ snapshotDefault.drive = Const.zero ∧ snapshotDefault.punish = false ∧
    snapshotDefault.plus10db = false ∧ testState.designerRom = designerRomWords ∧
    applySnapshot snapshotDefault testState = .ok { testState with
      snap := snapshotDefault
      amount := shapeAmount testCfg Const.zero false false
      coef := snapshotCoefs snapshotDefault testCfg } :=
  ⟨by decide +kernel, rfl, rfl, rfl, rfl, applySnapshot_rom rfl⟩

theorem witness_ShaperIsOdd :
    Fp.isNaN (shaper testCfg.kShape 0x3FE0000000000000#64 Const.one) = false := by decide +kernel

theorem witness_ChugWithAmountZeroIsTheIdentity :
    Fp.isZero 0x8000000000000000#64 = true ∧ Fp.finite 0x3FE0000000000000#64 = true ∧
    Fp.le Const.zero (ChugTracker.mk Const.one).env = true := by decide +kernel

theorem witness_SubGainStaysInTheUnitInterval :
    unitInterval thickenReset.sub = true ∧ unitInterval Const.one = true := by decide +kernel

/-- The phase at 0 and just below one turn, the period at 40 and just below 1500. -/
theorem witness_PhaseWrapsIntoOneTurn :
    Fp.le Const.zero Const.zero = true ∧ Fp.lt Const.zero twoPi = true ∧
    Fp.lt (twoPi - 1) twoPi = true ∧ Fp.le Const.zero (twoPi - 1) = true ∧
    Fp.le Const.forty Const.forty = true ∧ Fp.lt Const.forty Const.thPmax = true ∧
    Fp.le Const.forty (Const.thPmax - 1) = true ∧ Fp.lt (Const.thPmax - 1) Const.thPmax = true := by
  decide +kernel

/-- A tracker with a full ring and a lock, and a sample that is no NaN. -/
theorem witness_ThickenKeepsItsTrackerInvariants :
    TrackerOk { thickenReset with
      hist := Vector.replicate 4 (Fp.ofNat 100), hcount := 4, locked := Fp.ofNat 100 } ∧
    Fp.isNaN Const.one = false := by
  refine ⟨⟨by decide, by decide, ?_, .inr (by decide +kernel), by decide +kernel, by decide +kernel,
    by decide +kernel⟩, by decide +kernel⟩
  intro i _
  exact ⟨100, by decide, by decide, by fin_cases i <;> rfl⟩

/-- A tie: 2^53 + 1 units. -/
theorem witness_RoundingIsToNearestTiesToEven :
    Fp.finite (Fp.round true (2 ^ 53 + 1) 0) = true ∧ Fp.finite Const.one = true := by decide +kernel

theorem witness_RoundingOverflowsToInfinity :
    Fp.finite (Fp.round true ((2 ^ 54 - 1) * 2 ^ 2044) 0) = false ∧
    Fp.finite (Fp.round true ((2 ^ 54 - 1) * 2 ^ 2044 - 1) 0) = true := by decide +kernel

/-- A finite quotient (a tie: three of the smallest NUM by 2) and one that overflows. -/
theorem witness_DivisionIsCorrectlyRounded :
    let tiny : NUM := 0x0000000000000003#64
    let huge : NUM := 0x7FEFFFFFFFFFFFFF#64
    let half : NUM := 0x3FE0000000000000#64
    Fp.finite tiny = true ∧ Fp.finite Const.two = true ∧ Fp.isZero Const.two = false ∧
    Fp.finite (Fp.div tiny Const.two) = true ∧ Fp.finite huge = true ∧ Fp.finite half = true ∧
    Fp.isZero half = false ∧ Fp.finite (Fp.div huge half) = false := by decide +kernel

theorem witness_SquareRootIsCorrectlyRounded :
    Fp.finite Const.two = true ∧ 0 ≤ Fp.value Const.two := by decide +kernel

theorem witness_ComparisonsFollowTheValues :
    Fp.finite Const.one = true ∧ Fp.finite Const.minusTwo = true ∧
    Fp.isNaN 0x7FF8000000000000#64 = true := by decide +kernel

theorem invariant_of (s : State) (hm : s.mem.wf = true) (hc : s.chainRom = chainRomWords)
    (hd : s.designerRom = designerRomWords) (hcfg : s.cfg = testCfg) (hseq : sequencerOk s)
    (hsnap : s.snap = snapshotDefault) (ha : s.amount = Const.zero)
    (hch : s.chans = Vector.replicate 2 channelReset) : Invariant s where
  mem := hm
  chainRom := hc
  designerRom := hd
  connection := fun _ =>
    { cfg := by rw [hcfg]; decide +kernel
      sequencer := hseq
      snap := by rw [hsnap]; decide +kernel
      amount := by rw [ha]; decide +kernel
      rings := by
        intro c
        rw [hch]
        fin_cases c <;> exact ⟨by decide, by decide +kernel⟩ }

theorem witness_EveryStepKeepsTheInvariant : Invariant testState ∧ step testState = .next testState :=
  ⟨invariant_of _ rfl rfl rfl rfl (by unfold sequencerOk; decide) rfl rfl rfl, rfl⟩

theorem witness_NoStepOfABlockIsRefused :
    Invariant testBlock ∧ testBlock.conn = true ∧ testBlock.run = true :=
  ⟨invariant_of _ rfl rfl rfl rfl (by unfold sequencerOk; decide) rfl rfl rfl, rfl, rfl⟩

/-- A block of one input channel at 0, outputs at 16 and 32, and addresses just outside them. -/
theorem witness_BlockRunsToItsEnd :
    let s := { testState with inbox := [.signal (.process [0] 16 32)] }
    Invariant s ∧ s.conn = true ∧ s.run = false ∧ s.inbox = .signal (.process [0] 16 32) :: [] ∧
    buffersDisjoint s.cfg.blockLen [0] 16 32 = true ∧ 15 < 16 ∧ 32 + 8 * s.cfg.blockLen ≤ 48 :=
  ⟨invariant_of _ rfl rfl rfl rfl (by unfold sequencerOk; decide) rfl rfl rfl, rfl, rfl, rfl,
    by decide +kernel, by decide, by decide⟩

theorem witness_MutedBlockWritesOnlyZeros :
    let s := { testState with inbox := [.signal (.process [0] 16 32)], pendMute := some true }
    Invariant s ∧ s.conn = true ∧ s.run = false ∧ s.inbox = .signal (.process [0] 16 32) :: [] ∧
    buffersDisjoint s.cfg.blockLen [0] 16 32 = true ∧ s.pendMute.getD s.muted = true ∧
    1 < s.cfg.blockLen :=
  ⟨invariant_of _ rfl rfl rfl rfl (by unfold sequencerOk; decide) rfl rfl rfl, rfl, rfl, rfl,
    by decide +kernel, rfl, by decide⟩

/-- A silent block: for `STOUT`, for `THICK` whose predicate is false, and for `END`. -/
theorem witness_SilenceStaysSilent :
    let s := { testBlock with acc := 0x8000000000000000#64 }
    (stagePred (.stout .always)).isSome = true ∧ (stagePred (.thick .thk)).isSome = true ∧
    s.run = true ∧ Silent s ∧ predHolds s.snap .always = true ∧ predHolds s.snap .thk = false := by
  refine ⟨rfl, rfl, rfl, ⟨by decide +kernel, ?_, ?_, ?_, by decide +kernel, by decide +kernel,
    by decide +kernel, rfl, fun _ => ⟨by decide, by decide +kernel, ?_⟩⟩, rfl, rfl⟩
  · decide +kernel
  · decide +kernel
  · decide +kernel
  · intro base _ n _
    have h : ∀ a, readNum [] a = 0x0000000000000000#64 := fun a => by
      simp only [readNum, readByte, unlistedByte]; decide +kernel
    change Fp.isZero (readNum [] _) = true
    rw [h]
    decide +kernel

end Sys2Proof.Tests
end

section
/-! PROOFS of the encoding family (30_encoding.md): what a `SETMUTE` message is (R82), and what the
pseudo-instructions expand to (R87). -/

namespace Sys2Proof

/-! ### `SETMUTE` -/

@[simp] theorem encodeMute_true : encodeMute true = 0x0200000000000001#64 := rfl

@[simp] theorem encodeMute_false : encodeMute false = 0x0200000000000000#64 := rfl

/-- A header whose `msgop` is 0x02 and whose must-be-zero bits are zero is the flag in bit 0. -/
theorem decodeMessage_setmute {header : Word64} (hop : header.extractLsb' 56 8 = 0x02#8)
    (hzero : header.extractLsb' 1 55 = 0#55) :
    decodeMessage [header] = .ok (.setmute (header.getLsbD 0)) := by
  simp [decodeMessage, hop, hzero]

/-- Nothing else decodes to `SETMUTE`: of the branches of the decoder only `msgop` 0x02 answers it. -/
theorem of_decodeMessage_setmute {header : Word64} {payload : List Word64} {b : Bool}
    (h : decodeMessage (header :: payload) = .ok (.setmute b)) :
    header.extractLsb' 56 8 = 0x02#8 ∧ header.extractLsb' 1 55 = 0#55 ∧ payload = [] ∧
      header.getLsbD 0 = b := by
  unfold decodeMessage at h
  split at h
  next => cases h
  next head rest hwords =>
    obtain ⟨rfl, rfl⟩ := List.cons.inj hwords
    split at h
    next =>
      split at h
      · split at h <;> cases h
      · cases h
    next hop =>
      split at h
      next hzero =>
        split at h
        next hlen =>
          cases h
          exact ⟨BitVec.eq_of_toNat_eq hop, hzero, List.length_eq_zero_iff.mp hlen, rfl⟩
        next => cases h
      next => cases h
    next => cases h

/-- Settles O5: both words are computed, and the layout is the decoder's acceptance of `SETMUTE` read in
the two directions. -/
theorem setmuteIsOneWordWithItsFlagInBitZero : Obligations.SetmuteIsOneWordWithItsFlagInBitZero := by
  unfold Obligations.SetmuteIsOneWordWithItsFlagInBitZero
  refine ⟨by simp [encode], by simp [encode], fun word b => ⟨fun h => ?_, ?_⟩⟩
  · obtain ⟨hop, hzero, -, hflag⟩ := of_decodeMessage_setmute h
    exact ⟨hop, hzero, hflag⟩
  · rintro ⟨hop, hzero, rfl⟩
    exact decodeMessage_setmute hop hzero

/-! ### Pseudo-instructions -/

theorem map_encode_tonestack :
    Instr.tonestack.map encode = [.descriptor 0x6000#16, .descriptor 0x6100#16, .descriptor 0x6200#16,
      .descriptor 0x6300#16, .descriptor 0x6400#16] := rfl

theorem map_encode_peq :
    Instr.peq.map encode = [.descriptor 0x6500#16, .descriptor 0x6600#16, .descriptor 0x6700#16,
      .descriptor 0x6800#16] := rfl

theorem map_encode_lofi :
    Instr.lofi.map encode = [.descriptor 0x6980#16, .descriptor 0x6A80#16, .descriptor 0x7080#16] := rfl

/-- `CHAIN` is the chain ROM of R77: its middle is the three expansions above, in order. -/
theorem map_encode_chain : Instr.chain.map encode = Machine.chainRomWords.map Code.descriptor := by
  simp only [Instr.chain, List.map_append, map_encode_tonestack, map_encode_peq, map_encode_lofi]
  rfl

/-- `DESIGN` is the designer ROM of R78. -/
theorem map_encode_design : Instr.design.map encode = Machine.designerRomWords.map Code.descriptor := rfl

/-- A message with nothing present has an empty mask. -/
theorem presentMask_replicate_none (n : Nat) : presentMask (List.replicate n none) = 0 := by
  induction n with
  | zero => rfl
  | succ n ih => simp [List.replicate_succ, presentMask, ih]

theorem rawOfSettings_empty : rawOfSettings SettingsMsg.empty = List.replicate 32 none := rfl

/-- `UPDSET {}` is a header without a present bit and 32 zero words. -/
theorem encodeSettings_empty :
    encodeSettings SettingsMsg.empty = 0x0100000000000000#64 :: List.replicate 32 0#64 := by
  simp only [encodeSettings, rawOfSettings_empty, presentMask_replicate_none, List.map_replicate]
  rfl

@[simp] theorem Machine.resolveNum_none (default : NUM) : Machine.resolveNum none default = default := rfl

@[simp] theorem Machine.resolveBool_none (default : Bool) : Machine.resolveBool none default = default := rfl

/-- An absent field resolves to its default, so a message of absent fields is the default snapshot. -/
theorem Machine.resolve_empty : Machine.resolve SettingsMsg.empty = Machine.snapshotDefault := by
  simp [Machine.resolve, SettingsMsg.empty]

/-- Settles O6: one lemma for each row of the table of R87. -/
theorem pseudoInstructionsExpandAsListed : Obligations.PseudoInstructionsExpandAsListed := by
  unfold Obligations.PseudoInstructionsExpandAsListed
  exact ⟨map_encode_tonestack, map_encode_peq, map_encode_lofi, map_encode_chain, map_encode_design,
    rfl, rfl, congrArg Code.message encodeSettings_empty, Machine.resolve_empty⟩

end Sys2Proof
end

section
/-! PROOFS of the designer family (40_designer.md): a type code that names no type is peaking (R110). -/

namespace Sys2Proof

/-! ### Which words decode to `DSGN` with an unrecognized type -/

/-- A format S operation without a slot decodes to its own row, with some predicate. -/
theorem of_decodeStage {make : Pred → Instr} {w : Word16} {i : Instr}
    (h : decodeStage make w = .ok i) : ∃ p, make p = i := by
  unfold decodeStage at h
  split at h
  · cases hp : decodeStagePred w with
    | error e => rw [hp] at h; cases h
    | ok p => rw [hp] at h; exact ⟨p, Except.ok.inj h⟩
  · cases h

/-- Of the type codes only 5 and above select the row of the unrecognized types (R76). -/
theorem of_designInstr_dsgnOther {slot slot' : Slot} {code type : BitVec 8}
    (h : designInstr slot code = .dsgnOther slot' type) : 5 ≤ code.toNat := by
  unfold designInstr at h
  split at h
  case h_6 =>
    by_contra hlt
    interval_cases code.toNat <;> contradiction
  all_goals cases h

/-- Of the descriptors only those with `op` 0xD and a type byte of 5 or more are `DSGN` with an
unrecognized type (R72, R76). -/
theorem of_decodeDescriptor_dsgnOther {w : Word16} {slot : Slot} {type : BitVec 8}
    (h : decodeDescriptor w = .ok (.dsgnOther slot type)) :
    (w.extractLsb' 12 4).toNat = 13 ∧ 5 ≤ (w.extractLsb' 0 8).toNat := by
  unfold decodeDescriptor at h
  split at h
  case h_1 => split at h <;> cases h
  case h_7 =>
    split at h
    · cases hp : decodeStagePred w <;> rw [hp] at h <;> cases h
    · cases h
  case h_11 hop =>
    refine ⟨hop, ?_⟩
    cases hs : decodeSlot (w.extractLsb' 8 4) with
    | error e => rw [hs] at h; cases h
    | ok slot' => rw [hs] at h; exact of_designInstr_dsgnOther (Except.ok.inj h)
  case h_12 => cases h
  all_goals obtain ⟨p, hp⟩ := of_decodeStage h; cases hp

/-- Every `DSGN` of the designer ROM names its type (R78). -/
theorem Machine.designerRomWords_types_named :
    ∀ w ∈ Machine.designerRomWords, (w.extractLsb' 12 4).toNat = 13 → (w.extractLsb' 0 8).toNat < 5 := by
  simp [designerRomWords]

/-! ### What it does -/

theorem Machine.exec_dsgnPeaking (slot : Slot) (s : Machine.State) :
    Machine.exec (.dsgnPeaking slot) s = .next (Machine.designSlot slot .peaking s).advance := rfl

/-- An unrecognized type falls back to peaking, and nothing records that it did (R110, R244). -/
theorem Machine.exec_dsgnOther (slot : Slot) (type : BitVec 8) (s : Machine.State) :
    Machine.exec (.dsgnOther slot type) s = Machine.exec (.dsgnPeaking slot) s := rfl

/-- Settles O21: the two rows have one effect, and a word of the designer ROM that decoded to an
unrecognized type would have a type byte both below 5 and not below 5. -/
theorem unrecognizedTypesBehaveAsPeaking : Obligations.UnrecognizedTypesBehaveAsPeaking := by
  unfold Obligations.UnrecognizedTypesBehaveAsPeaking
  refine ⟨fun slot type s _ => ?_, fun w hw slot type h => ?_, rfl, Machine.exec_dsgnOther 5 0x7F#8⟩
  · exact ⟨_, (Machine.exec_dsgnOther slot type s).trans (Machine.exec_dsgnPeaking slot s),
      Machine.exec_dsgnPeaking slot s⟩
  · obtain ⟨hop, htype⟩ := of_decodeDescriptor_dsgnOther h
    have hnamed := Machine.designerRomWords_types_named w hw hop
    omega

end Sys2Proof
end

section
/-! PROOFS of the biquad family (41_biquad.md): a silent biquad stays silent (R125), a NaN stays (R122), and
what `BQ` does (R120, R121). -/

namespace Sys2Proof

/-! ### Arithmetic on zeros -/

/-- Both fields of a zero are 0. -/
theorem Fp.isZero_iff (x : NUM) : Fp.isZero x = true ↔ Fp.expo x = 0 ∧ Fp.frac x = 0 := by
  simp [Fp.isZero]

theorem Fp.finite_of_isZero {x : NUM} (h : Fp.isZero x = true) : Fp.finite x = true := by
  obtain ⟨hexpo, -⟩ := (Fp.isZero_iff x).mp h
  simp [Fp.finite, hexpo]

theorem Fp.units_of_isZero {x : NUM} (h : Fp.isZero x = true) : Fp.units x = 0 := by
  obtain ⟨hexpo, hfrac⟩ := (Fp.isZero_iff x).mp h
  simp [Fp.units, Fp.significand, hexpo, hfrac]

theorem Fp.value_of_isZero {x : NUM} (h : Fp.isZero x = true) : Fp.value x = 0 := by
  simp [Fp.value, Fp.units_of_isZero h]

@[simp] theorem Fp.isZero_zero (neg : Bool) : Fp.isZero (Fp.zero neg) = true := by
  cases neg <;> decide

/-- No units round to a zero of the given sign, exactly. -/
@[simp] theorem Fp.round_zero_units (neg : Bool) (k : Nat) : Fp.round neg 0 k = Fp.zero neg := by
  simp [Fp.round, Fp.dropped, Fp.zero]

/-- The opposite differs in bit 63 only, which is no bit of the exponent. -/
@[simp] theorem Fp.expo_neg (x : NUM) : Fp.expo (Fp.neg x) = Fp.expo x := by
  have hmask : (1#64 <<< 63).extractLsb' 52 11 = 0#11 := rfl
  simp only [Fp.expo, Fp.neg, BitVec.extractLsb'_xor, hmask, BitVec.xor_zero]

/-- The opposite differs in bit 63 only, which is no bit of the fraction. -/
@[simp] theorem Fp.frac_neg (x : NUM) : Fp.frac (Fp.neg x) = Fp.frac x := by
  have hmask : (1#64 <<< 63).extractLsb' 0 52 = 0#52 := rfl
  simp only [Fp.frac, Fp.neg, BitVec.extractLsb'_xor, hmask, BitVec.xor_zero]

@[simp] theorem Fp.isZero_neg (x : NUM) : Fp.isZero (Fp.neg x) = Fp.isZero x := by
  simp [Fp.isZero]

/-- A finite factor times a zero is a zero, of the sign R8 gives it. -/
theorem Fp.mul_of_isZero {a b : NUM} (ha : Fp.finite a = true) (hb : Fp.isZero b = true) :
    Fp.mul a b = Fp.zero (Fp.sign a != Fp.sign b) := by
  rw [Fp.mul_of_finite ha (Fp.finite_of_isZero hb), Fp.units_of_isZero hb, Nat.mul_zero,
    Fp.round_zero_units]

theorem Fp.isZero_mul {a b : NUM} (ha : Fp.finite a = true) (hb : Fp.isZero b = true) :
    Fp.isZero (Fp.mul a b) = true := by
  rw [Fp.mul_of_isZero ha hb, Fp.isZero_zero]

/-- Two zeros sum to `-0` if both are negative, else to `+0` (R8). -/
theorem Fp.addCore_of_isZero {a b : NUM} (invalid : NUM) (ha : Fp.isZero a = true)
    (hb : Fp.isZero b = true) :
    Fp.addCore invalid a b = Fp.zero (Fp.sign a && Fp.sign b) := by
  have haInf := Fp.isInf_of_finite (Fp.finite_of_isZero ha)
  have hbInf := Fp.isInf_of_finite (Fp.finite_of_isZero hb)
  simp [Fp.addCore, haInf, hbInf, Fp.value_of_isZero ha, Fp.value_of_isZero hb]

theorem Fp.isZero_add {a b : NUM} (ha : Fp.isZero a = true) (hb : Fp.isZero b = true) :
    Fp.isZero (Fp.add a b) = true := by
  have haNaN := Fp.isNaN_of_finite (Fp.finite_of_isZero ha)
  have hbNaN := Fp.isNaN_of_finite (Fp.finite_of_isZero hb)
  simp [Fp.add, haNaN, hbNaN, Fp.addCore_of_isZero _ ha hb]

theorem Fp.isZero_sub {a b : NUM} (ha : Fp.isZero a = true) (hb : Fp.isZero b = true) :
    Fp.isZero (Fp.sub a b) = true := by
  have haNaN := Fp.isNaN_of_finite (Fp.finite_of_isZero ha)
  have hbNaN := Fp.isNaN_of_finite (Fp.finite_of_isZero hb)
  have hneg : Fp.isZero (Fp.neg b) = true := by rw [Fp.isZero_neg, hb]
  simp [Fp.sub, haNaN, hbNaN, Fp.addCore_of_isZero _ ha hneg]

/-! ### A NaN operand -/

theorem Fp.isNaN_add {a b : NUM} (h : Fp.isNaN a = true ∨ Fp.isNaN b = true) :
    Fp.isNaN (Fp.add a b) = true := by
  rw [Fp.add_of_nan h, Fp.isNaN_nan]

theorem Fp.isNaN_sub {a b : NUM} (h : Fp.isNaN a = true ∨ Fp.isNaN b = true) :
    Fp.isNaN (Fp.sub a b) = true := by
  rw [Fp.sub_of_nan h, Fp.isNaN_nan]

theorem Fp.isNaN_mul {a b : NUM} (h : Fp.isNaN a = true ∨ Fp.isNaN b = true) :
    Fp.isNaN (Fp.mul a b) = true := by
  rw [Fp.mul_of_nan h, Fp.isNaN_nan]

namespace Machine

/-! ### Zero in, zero state, zero out (R125) -/

theorem coefsFinite_iff (k : Coefs) : coefsFinite k = true ↔
    Fp.finite k.b0 = true ∧ Fp.finite k.b1 = true ∧ Fp.finite k.b2 = true ∧
      Fp.finite k.a1 = true ∧ Fp.finite k.a2 = true := by
  simp [coefsFinite]

theorem filterSilent_iff (f : FilterState) : filterSilent f = true ↔
    Fp.isZero f.x1 = true ∧ Fp.isZero f.x2 = true ∧ Fp.isZero f.y1 = true ∧ Fp.isZero f.y2 = true := by
  simp [filterSilent]

/-- Each of the five products is a zero, and so are the four sums of zeros. -/
theorem isZero_biquadOut {k : Coefs} {f : FilterState} {x : NUM} (hk : coefsFinite k = true)
    (hf : filterSilent f = true) (hx : Fp.isZero x = true) : Fp.isZero (biquadOut k f x) = true := by
  obtain ⟨hb0, hb1, hb2, ha1, ha2⟩ := (coefsFinite_iff k).mp hk
  obtain ⟨hx1, hx2, hy1, hy2⟩ := (filterSilent_iff f).mp hf
  have hforward := Fp.isZero_add (Fp.isZero_add (Fp.isZero_mul hb0 hx) (Fp.isZero_mul hb1 hx1))
    (Fp.isZero_mul hb2 hx2)
  exact Fp.isZero_sub (Fp.isZero_sub hforward (Fp.isZero_mul ha1 hy1)) (Fp.isZero_mul ha2 hy2)

/-- A zero input and a zero output shifted into a silent state leave it silent. -/
theorem filterSilent_biquadShift {f : FilterState} {x y : NUM} (hf : filterSilent f = true)
    (hx : Fp.isZero x = true) (hy : Fp.isZero y = true) : filterSilent (biquadShift f x y) = true := by
  obtain ⟨hx1, -, hy1, -⟩ := (filterSilent_iff f).mp hf
  exact (filterSilent_iff _).mpr ⟨hx, hx1, hy, hy1⟩

/-- With the forward coefficients -1 and no feedback every product of `+0` by a forward coefficient is
`-0`, and so is the sum. -/
theorem biquadOut_negative_zero :
    biquadOut ⟨0xBFF0000000000000#64, 0xBFF0000000000000#64, 0xBFF0000000000000#64, 0#64, 0#64⟩
      ⟨0#64, 0#64, 0#64, 0#64⟩ 0x0000000000000000#64 = 0x8000000000000000#64 := by decide +kernel

/-- Settles O40: the zeros by the laws of a zero product and a zero sum, the negative one by the example
above. -/
theorem silentBiquadStaysSilent : Obligations.SilentBiquadStaysSilent := by
  unfold Obligations.SilentBiquadStaysSilent
  refine ⟨fun k f x hk hf hx => ?_, _, _, _, ?_, ?_, rfl, ?_, biquadOut_negative_zero, ?_⟩
  · have hy := isZero_biquadOut hk hf hx
    exact ⟨hy, filterSilent_biquadShift hf hx hy⟩
  all_goals decide +kernel

/-! ### A NaN stays (R122) -/

/-- One NaN factor makes its product a NaN, and so every sum that follows: the disjunction is nested as the
direct form is. -/
theorem isNaN_biquadOut {k : Coefs} {f : FilterState} {x : NUM}
    (h : ((((Fp.isNaN k.b0 = true ∨ Fp.isNaN x = true) ∨ (Fp.isNaN k.b1 = true ∨ Fp.isNaN f.x1 = true)) ∨
      (Fp.isNaN k.b2 = true ∨ Fp.isNaN f.x2 = true)) ∨ (Fp.isNaN k.a1 = true ∨ Fp.isNaN f.y1 = true)) ∨
      (Fp.isNaN k.a2 = true ∨ Fp.isNaN f.y2 = true)) :
    Fp.isNaN (biquadOut k f x) = true :=
  Fp.isNaN_sub <| h.imp (fun h => Fp.isNaN_sub <| h.imp (fun h => Fp.isNaN_add <| h.imp
    (fun h => Fp.isNaN_add <| h.imp Fp.isNaN_mul Fp.isNaN_mul) Fp.isNaN_mul) Fp.isNaN_mul) Fp.isNaN_mul

/-- `y1` is an operand of the next output, which the shift then puts in `y1`: a NaN there never leaves. -/
theorem isNaN_biquadRun {f : FilterState} (h : Fp.isNaN f.y1 = true) (later : List (Coefs × NUM)) :
    ∀ y ∈ (biquadRun f later).1, Fp.isNaN y = true := by
  induction later generalizing f with
  | nil => simp [biquadRun]
  | cons next rest ih =>
    obtain ⟨k, x⟩ := next
    have hout : Fp.isNaN (biquadOut k f x) = true := isNaN_biquadOut (.inl (.inr (.inr h)))
    rw [biquadRun, List.forall_mem_cons]
    exact ⟨hout, ih hout⟩

/-- Settles O41: the NaN reaches the output, the shift keeps it in `y1`, and from there it stays. -/
theorem naNIsStickyInABiquad : Obligations.NaNIsStickyInABiquad := by
  unfold Obligations.NaNIsStickyInABiquad
  intro k f x h
  have hout : Fp.isNaN (biquadOut k f x) = true := by
    apply isNaN_biquadOut
    simp only [List.any_cons, List.any_nil, Bool.or_false, Bool.or_eq_true] at h
    tauto
  exact ⟨hout, rfl, isNaN_biquadRun hout⟩

/-! ### `BQ` (R120, R121) -/

/-- The 16 bits of format S, each field shifted to its place (R71). -/
theorem formatS_eq_or (op idx : BitVec 4) (p : Pred) : formatS op idx p =
    (op.setWidth 16 <<< 12) ||| (idx.setWidth 16 <<< 8) ||| ((encodePred p).setWidth 16 <<< 5) := by
  apply BitVec.eq_of_getLsbD_eq
  intro i hi
  simp only [formatS, BitVec.getLsbD_append, BitVec.getLsbD_or, BitVec.getLsbD_shiftLeft,
    BitVec.getLsbD_setWidth, BitVec.getLsbD_zero]
  interval_cases i <;> simp

/-- A slot fits the four bits of `idx`. -/
theorem setWidth_slot (slot : Slot) :
    (BitVec.ofNat 4 slot.val).setWidth 16 = BitVec.ofNat 16 slot.val := by
  apply BitVec.eq_of_toNat_eq
  simp only [BitVec.toNat_setWidth, BitVec.toNat_ofNat]
  omega

theorem encode_bq (slot : Slot) (p : Pred) : encode (.bq slot p) =
    .descriptor (0x6000#16 ||| (BitVec.ofNat 16 slot.val <<< 8) ||| ((encodePred p).setWidth 16 <<< 5)) := by
  rw [encode, formatS_eq_or, setWidth_slot]
  rfl

theorem exec_bq (slot : Slot) (p : Pred) (s : State) :
    exec (.bq slot p) s = .next (staged p (opBq slot) s) := rfl

/-- The vector of R120: a unit impulse through a filter with feedback. -/
theorem biquadRun_impulse :
    biquadRun ⟨0, 0, 0, 0⟩ ([0x3FF0000000000000#64, 0, 0, 0, 0, 0].map (fun x =>
        (⟨0x3FE0000000000000#64, 0x3FD0000000000000#64, 0x3FC0000000000000#64, 0xBFE0000000000000#64,
          0x3FD0000000000000#64⟩, x))) =
      ([0x3FE0000000000000#64, 0x3FE0000000000000#64, 0x3FD0000000000000#64, 0x0000000000000000#64,
        0xBFB0000000000000#64, 0xBFA0000000000000#64],
       ⟨0, 0, 0xBFA0000000000000#64, 0xBFB0000000000000#64⟩) := by decide +kernel

/-- A filter state written to the current channel: the bundle with that slot replaced. -/
theorem State.setFilter_current (s : State) (slot : Slot) (f : FilterState) :
    (s.setFilter slot f).chans[s.cc] = { s.chan with fs := s.chan.fs.set slot.val f slot.isLt } :=
  s.setChan_chan _

/-- The other channel's bundle survives it. -/
theorem State.setFilter_other (s : State) (slot : Slot) (f : FilterState) {c : Chan} (h : c ≠ s.cc) :
    (s.setFilter slot f).chans[c] = s.chans[c] :=
  s.setChan_other _ c h

theorem State.setFilter_slot (s : State) (slot : Slot) (f : FilterState) :
    (s.setFilter slot f).chans[s.cc].fs[slot] = f := by
  rw [State.setFilter_current]
  exact Vector.getElem_set_self _

theorem State.setFilter_otherSlot (s : State) (f : FilterState) {slot other : Slot} (h : other ≠ slot) :
    (s.setFilter slot f).chans[s.cc].fs[other] = s.chans[s.cc].fs[other] := by
  have hne : slot.val ≠ other.val := fun e => h (Fin.ext e.symm)
  rw [State.setFilter_current]
  exact Vector.getElem_set_ne slot.isLt other.isLt hne

theorem State.setFilter_th (s : State) (slot : Slot) (f : FilterState) :
    (s.setFilter slot f).chans[s.cc].th = s.chans[s.cc].th := by
  rw [State.setFilter_current]
  rfl

theorem State.setFilter_ch (s : State) (slot : Slot) (f : FilterState) :
    (s.setFilter slot f).chans[s.cc].ch = s.chans[s.cc].ch := by
  rw [State.setFilter_current]
  rfl

/-- Settles O15: the word and the example are computed; an executed `BQ` writes the filter output to the
accumulator and the shifted state to its slot, and what a write to one slot leaves is the frame. -/
theorem bqFiltersTheAccumulator : Obligations.BqFiltersTheAccumulator := by
  unfold Obligations.BqFiltersTheAccumulator
  refine ⟨encode_bq, biquadRun_impulse, fun slot p s => ⟨_, exec_bq slot p s, fun hp => ?_, fun hp => ?_⟩⟩
  · exact staged_of_fails hp
  · rw [staged_of_holds hp]
    exact ⟨rfl, s.setFilter_slot slot _, fun _ h => s.setFilter_otherSlot _ h, s.setFilter_th slot _,
      s.setFilter_ch slot _, fun _ h => s.setFilter_other slot _ h⟩

end Machine

end Sys2Proof
end

section
/-! PROOFS of the shaper family (42_shaper.md): amount 0 of either sign bypasses, amount NaN gives NaN
(R132). -/

namespace Sys2Proof

/-! ### Comparison with zero -/

/-- Below the sign the fields stand in the order of their weight: the exponent over the fraction. -/
theorem Fp.toNat_extractLsb'_magnitude (x : NUM) :
    (x.extractLsb' 0 63).toNat = Fp.expo x * 2 ^ 52 + Fp.frac x := by
  simp only [Fp.expo, Fp.frac, BitVec.extractLsb'_toNat, Nat.shiftRight_eq_div_pow]
  omega

/-- In the order of R11 the two zeros, and only they, stand at 0. -/
theorem Fp.ord_eq_zero_iff (x : NUM) : Fp.ord x = 0 ↔ Fp.isZero x = true := by
  rw [Fp.isZero_iff]
  simp only [Fp.ord, Fp.toNat_extractLsb'_magnitude]
  split <;> omega

theorem Fp.ord_zero : Fp.ord Const.zero = 0 := rfl

/-- Equal to `+0` are the two zeros; a NaN is not (R11). -/
theorem Fp.eq_zero_iff (x : NUM) : Fp.eq x Const.zero = true ↔ Fp.isZero x = true := by
  rw [Fp.eq_iff, Fp.ord_zero, Fp.ord_eq_zero_iff]
  refine ⟨fun ⟨_, _, hzero⟩ => hzero, fun hzero => ⟨?_, rfl, hzero⟩⟩
  exact Fp.isNaN_of_finite (Fp.finite_of_isZero hzero)

theorem Fp.isZero_of_isNaN {x : NUM} (h : Fp.isNaN x = true) : Fp.isZero x = false := by
  by_contra hzero
  have hfinite := Fp.finite_of_isZero ((Bool.not_eq_false _).mp hzero)
  rw [Fp.finite_of_isNaN h] at hfinite
  exact Bool.false_ne_true hfinite

theorem Fp.isNaN_div {a b : NUM} (h : Fp.isNaN a = true ∨ Fp.isNaN b = true) :
    Fp.isNaN (Fp.div a b) = true := by
  rw [Fp.div_of_nan h, Fp.isNaN_nan]

namespace Machine

/-! ### The two branches of the shaper -/

theorem shaper_of_isZero {a : NUM} (k x : NUM) (h : Fp.isZero a = true) : shaper k x a = x :=
  if_pos ((Fp.eq_zero_iff a).mpr h)

/-- Away from amount 0 the shaper is the formula of R131. -/
theorem shaper_of_not_isZero {a : NUM} (k x : NUM) (h : Fp.isZero a = false) :
    shaper k x a = Fp.div (Fp.mul (Fp.mul (Fp.add Const.shapeC a) x) k)
      (Fp.add Const.pi (Fp.mul a (Fp.abs x))) := by
  have hne : ¬ Fp.eq a Const.zero = true := by simp [Fp.eq_zero_iff, h]
  exact if_neg hne

/-- A NaN amount is a term of the formula's numerator. -/
theorem isNaN_shaper_of_isNaN_amount {a : NUM} (k x : NUM) (h : Fp.isNaN a = true) :
    Fp.isNaN (shaper k x a) = true := by
  rw [shaper_of_not_isZero k x (Fp.isZero_of_isNaN h)]
  have hsum : Fp.isNaN (Fp.add Const.shapeC a) = true := Fp.isNaN_add (.inr h)
  exact Fp.isNaN_div (.inl (Fp.isNaN_mul (.inl (Fp.isNaN_mul (.inl hsum)))))

/-- Settles O42: a zero amount of either sign equals `+0` and takes the bypass; a NaN amount equals nothing,
takes the formula, and makes it NaN. -/
theorem shaperBypassesAtAmountZero : Obligations.ShaperBypassesAtAmountZero := by
  unfold Obligations.ShaperBypassesAtAmountZero
  exact fun k x _ => ⟨shaper_of_isZero k x, isNaN_shaper_of_isNaN_amount k x⟩

end Machine

end Sys2Proof
end

section
/-! PROOFS of the tone stack, parametric equalizer and lo-fi family (45_tonestack_peq_lofi.md): what `TRIM`
does (R182). -/

namespace Sys2Proof

namespace Machine

/-- A format S word without a slot is its operation with the predicate's code in bits 7:5 (R71, R74). -/
theorem encode_trim (p : Pred) :
    encode (.trim p) = .descriptor (0x7000#16 ||| ((encodePred p).setWidth 16 <<< 5)) := by
  rw [encode, formatS_eq_or]
  rfl

/-- The word `TRIM` has in the chain ROM (R77, R182). -/
theorem decodeDescriptor_trim_lofi : decodeDescriptor 0x7080#16 = .ok (.trim .lofi) := rfl

theorem exec_trim (p : Pred) (s : State) : exec (.trim p) s = .next (staged p opTrim s) := rfl

/-- Either way of `TRIM` the accumulator and `spc` are all that differs. -/
theorem staged_opTrim (p : Pred) (s : State) :
    staged p opTrim s = { s with
      acc := if predHolds s.snap p then Fp.mul s.acc Const.lofiTrim else s.acc
      spc := s.spc + 1 } := by
  obtain ⟨hp, hs⟩ | ⟨hp, hs⟩ := staged_cases p opTrim s
  · simp only [hs, hp, if_true]
    rfl
  · simp only [hs, hp, Bool.false_eq_true, if_false]
    rfl

/-- The factor is the decimal 0.8, rounded once (00_scope.md R5). -/
theorem lofiTrim_eq_div : Const.lofiTrim = Fp.div (Fp.ofNat 8) (Fp.ofNat 10) := by decide +kernel

/-- The vector of R182: a half, trimmed. -/
theorem mul_half_lofiTrim : Fp.mul 0x3FE0000000000000#64 Const.lofiTrim = 0x3FD999999999999A#64 := by
  decide +kernel

/-- Settles O19: the words, the constant and the example are computed; the effect is `staged_opTrim`, one
case for each truth value of the predicate. -/
theorem trimScalesByFourFifths : Obligations.TrimScalesByFourFifths := by
  unfold Obligations.TrimScalesByFourFifths
  refine ⟨encode_trim, rfl, decodeDescriptor_trim_lofi, fun p s => ?_, lofiTrim_eq_div, mul_half_lofiTrim⟩
  rw [exec_trim, staged_opTrim]

end Machine

end Sys2Proof
end

section
/-! PROOFS of the block processor family (46_block_processor.md): a snapshot and a mute pending together
commute (R218), and what `PREG` (R210) and `OUTG` (R211) do. -/

namespace Sys2Proof

namespace Machine

/-! ### A snapshot and a mute at one boundary (R218) -/

/-- A coefficient set is designed from SNAP and CFG, which a mute leaves alone (40_designer.md R100, R217). -/
theorem designSlot_applyMute (slot : Slot) (type : FilterType) (pending : Option Bool) (s : State) :
    designSlot slot type (applyMute pending s) = applyMute pending (designSlot slot type s) := by
  cases pending <;> rfl

/-- A mute passes through the designer pass of any ROM, whether the pass ends or is refused. -/
theorem runDesigner_applyMute (rom : List Word16) (pending : Option Bool) (s : State) :
    runDesigner rom (applyMute pending s) = (runDesigner rom s).map (applyMute pending) := by
  induction rom generalizing s with
  | nil => rfl
  | cons w rest ih =>
    unfold runDesigner
    split
    case h_1 => rfl
    case h_2 => rfl
    case h_3 i _ _ =>
      cases designOf i with
      | none => rfl
      | some d =>
        obtain ⟨slot, type⟩ := d
        simp only [designSlot_applyMute, ih]

/-- A snapshot after a mute is the mute after the snapshot (R216, R217). -/
theorem applySnapshot_applyMute (snap : Snapshot) (pending : Option Bool) (s : State) :
    applySnapshot snap (applyMute pending s) = (applySnapshot snap s).map (applyMute pending) := by
  unfold applySnapshot
  rw [← runDesigner_applyMute]
  cases pending <;> rfl

/-- The boundary step with a snapshot pending: the snapshot, whatever mute is pending, and both cells
emptied (R213). -/
theorem boundary_of_pendSnap {s : State} {m : SettingsMsg} (h : s.pendSnap = some m) :
    boundary s = (applySnapshot (resolve m) s).map (fun t =>
      { applyMute s.pendMute t with pendSnap := none, pendMute := none }) := by
  simp only [boundary, h]
  cases applySnapshot (resolve m) s <;> rfl

/-- Settles O36: the boundary step runs the snapshot and then the mute; in the other order the mute passes
through every descriptor of the designer pass, by induction on the ROM. -/
theorem snapshotAndMuteCommute : Obligations.SnapshotAndMuteCommute := by
  unfold Obligations.SnapshotAndMuteCommute
  refine ⟨fun s m b hm hb => ?_, fun s snap b => (applySnapshot_applyMute snap (some b) s).symm⟩
  rw [boundary_of_pendSnap hm, hb]
  rfl

/-! ### Stages that write the accumulator only -/

/-- Either way of a stage that only sets the accumulator, `acc` and `spc` are all that differs (R207). -/
theorem staged_setAcc (p : Pred) (f : State → NUM) (s : State) :
    staged p (fun s => s.setAcc (f s)) s = { s with
      acc := if predHolds s.snap p then f s else s.acc
      spc := s.spc + 1 } := by
  obtain ⟨hp, hs⟩ | ⟨hp, hs⟩ := staged_cases p (fun s => s.setAcc (f s)) s
  · simp only [hs, hp, if_true]
    rfl
  · simp only [hs, hp, Bool.false_eq_true, if_false]
    rfl

/-! ### `PREG` (R210) -/

theorem encode_preg (p : Pred) :
    encode (.preg p) = .descriptor (0x2000#16 ||| ((encodePred p).setWidth 16 <<< 5)) := by
  rw [encode, formatS_eq_or]
  rfl

theorem exec_preg (p : Pred) (s : State) : exec (.preg p) s = .next (staged p opPreg s) := rfl

/-- The vector of R210: a quarter, trimmed by 2, gained by 1. -/
theorem mul_quarter_two_one :
    Fp.mul (Fp.mul 0x3FD0000000000000#64 0x4000000000000000#64) 0x3FF0000000000000#64 =
      0x3FE0000000000000#64 := by decide +kernel

/-- Settles O11: the words and the example are computed; the effect is that of a stage which sets the
accumulator to the trimmed and then gained sample. -/
theorem pregScalesByTrimThenGain : Obligations.PregScalesByTrimThenGain := by
  unfold Obligations.PregScalesByTrimThenGain
  refine ⟨encode_preg, rfl, fun p s => ?_, mul_quarter_two_one⟩
  rw [exec_preg]
  exact congrArg _ (staged_setAcc p (fun s => Fp.mul (Fp.mul s.acc s.snap.inputTrim) s.snap.inputGain) s)

/-! ### `OUTG` (R211) -/

theorem encode_outg (p : Pred) :
    encode (.outg p) = .descriptor (0x8000#16 ||| ((encodePred p).setWidth 16 <<< 5)) := by
  rw [encode, formatS_eq_or]
  rfl

theorem exec_outg (p : Pred) (s : State) : exec (.outg p) s = .next (staged p opOutg s) := rfl

/-- What `OUTG` leaves in the accumulator (R211): a muted stage does not look at the sample. -/
def outgResult (s : State) : NUM :=
  if s.muted then Const.zero
  else Fp.mul (Fp.mul (Fp.mul s.acc s.snap.outputGain) s.snap.masterVolume) s.snap.outputTrim

/-- Muted or not, `OUTG` only sets the accumulator. -/
theorem opOutg_eq_setAcc : opOutg = fun s => s.setAcc (outgResult s) := by
  funext s
  exact (apply_ite s.setAcc _ _ _).symm

/-- The vector of R211: 1, gain 1, volume a half, trim 1. -/
theorem mul_one_one_half_one :
    Fp.mul (Fp.mul (Fp.mul 0x3FF0000000000000#64 0x3FF0000000000000#64) 0x3FE0000000000000#64)
      0x3FF0000000000000#64 = 0x3FE0000000000000#64 := by decide +kernel

/-- Settles O12: the words and the example are computed; the effect is that of a stage which sets the
accumulator to `outgResult`, the constant `+0.0` under mute. -/
theorem outgAppliesTheGainsOrMutes : Obligations.OutgAppliesTheGainsOrMutes := by
  unfold Obligations.OutgAppliesTheGainsOrMutes
  refine ⟨encode_outg, rfl, fun p s => ?_, mul_one_one_half_one⟩
  rw [exec_outg, opOutg_eq_setAcc]
  exact congrArg _ (staged_setAcc p outgResult s)

end Machine

end Sys2Proof
end

section
/-! PROOFS of the number system family, first part: the finite magnitudes in rising order, and what one
rounding does with an exact real value (00_scope.md R8). -/

namespace Sys2Proof

/-! ### Magnitudes -/

/-- The number in bits 62:0, the exponent over the fraction. -/
def Fp.magnitude (x : NUM) : Nat := Fp.expo x * 2 ^ 52 + Fp.frac x

/-- The units of 2^-1074 that the magnitude `m` stands for; above the finite ones the pattern goes on. -/
def Fp.unitsAt (m : Nat) : Nat :=
  if m / 2 ^ 52 = 0 then m % 2 ^ 52 else (2 ^ 52 + m % 2 ^ 52) * 2 ^ (m / 2 ^ 52 - 1)

/-- The magnitude of the infinities. -/
def Fp.infMagnitude : Nat := 2047 * 2 ^ 52

theorem Fp.frac_lt (x : NUM) : Fp.frac x < 2 ^ 52 := (x.extractLsb' 0 52).isLt

theorem Fp.expo_lt (x : NUM) : Fp.expo x < 2 ^ 11 := (x.extractLsb' 52 11).isLt

theorem Fp.magnitude_div (x : NUM) : Fp.magnitude x / 2 ^ 52 = Fp.expo x := by
  have := Fp.frac_lt x
  unfold Fp.magnitude
  omega

theorem Fp.magnitude_mod (x : NUM) : Fp.magnitude x % 2 ^ 52 = Fp.frac x := by
  have := Fp.frac_lt x
  unfold Fp.magnitude
  omega

theorem Fp.units_eq_unitsAt (x : NUM) : Fp.units x = Fp.unitsAt (Fp.magnitude x) := by
  rw [Fp.unitsAt, Fp.magnitude_div, Fp.magnitude_mod, Fp.units, Fp.significand, Fp.scale]
  split
  · next hexpo => simp [hexpo]
  · rfl

/-- The finite values are those below the infinities' magnitude. -/
theorem Fp.finite_iff (x : NUM) : Fp.finite x = true ↔ Fp.magnitude x < Fp.infMagnitude := by
  have hf := Fp.frac_lt x
  have he := Fp.expo_lt x
  simp only [Fp.finite, bne_iff_ne, Fp.magnitude, Fp.infMagnitude]
  omega

theorem Fp.isNaN_eq_false_iff (x : NUM) :
    Fp.isNaN x = false ↔ Fp.magnitude x ≤ Fp.infMagnitude := by
  have hf := Fp.frac_lt x
  have he := Fp.expo_lt x
  simp only [Fp.isNaN, Bool.and_eq_false_iff, beq_eq_false_iff_ne, bne_eq_false_iff_eq, Fp.magnitude,
    Fp.infMagnitude]
  omega

theorem Fp.isZero_iff_magnitude (x : NUM) : Fp.isZero x = true ↔ Fp.magnitude x = 0 := by
  rw [Fp.isZero_iff, Fp.magnitude]
  omega

/-- The order of R11 is that of the signed magnitudes. -/
theorem Fp.ord_eq (x : NUM) :
    Fp.ord x = if Fp.sign x then -(Fp.magnitude x : Int) else (Fp.magnitude x : Int) := by
  simp only [Fp.ord, Fp.toNat_extractLsb'_magnitude, Fp.magnitude]

/-- `q` units times a power of two, where `q` fills a significand: one magnitude holds them. The bound on
`q` takes in the carry out of a significand of ones. -/
theorem Fp.unitsAt_scaled {e q : Nat} (hq : q ≤ 2 ^ 53) (he : 0 < e → 2 ^ 52 ≤ q) :
    Fp.unitsAt (e * 2 ^ 52 + q) = q * 2 ^ e := by
  rcases Nat.lt_or_ge q (2 ^ 52) with hsmall | hlarge
  · obtain rfl : e = 0 := by omega
    have hdiv : (0 * 2 ^ 52 + q) / 2 ^ 52 = 0 := by omega
    have hmod : (0 * 2 ^ 52 + q) % 2 ^ 52 = q := by omega
    rw [Fp.unitsAt, if_pos hdiv, hmod, Nat.pow_zero, Nat.mul_one]
  · rcases Nat.lt_or_ge q (2 ^ 53) with hnormal | hcarry
    · have hdiv : (e * 2 ^ 52 + q) / 2 ^ 52 = e + 1 := by omega
      have hmod : (e * 2 ^ 52 + q) % 2 ^ 52 = q - 2 ^ 52 := by omega
      rw [Fp.unitsAt, hdiv, hmod, if_neg (by omega), Nat.add_sub_cancel, Nat.add_sub_cancel' hlarge]
    · obtain rfl : q = 2 ^ 53 := by omega
      have hdiv : (e * 2 ^ 52 + 2 ^ 53) / 2 ^ 52 = e + 2 := by omega
      have hmod : (e * 2 ^ 52 + 2 ^ 53) % 2 ^ 52 = 0 := by omega
      rw [Fp.unitsAt, hdiv, hmod, if_neg (by omega), Nat.add_zero, ← Nat.pow_add, ← Nat.pow_add,
        show 52 + (e + 2 - 1) = 53 + e by omega]

/-- Every magnitude is a significand times a power of two. -/
theorem Fp.unitsAt_eq (m : Nat) : ∃ e q, m = e * 2 ^ 52 + q ∧ q < 2 ^ 53 ∧ (0 < e → 2 ^ 52 ≤ q) := by
  rcases Nat.lt_or_ge m (2 ^ 53) with hsmall | hlarge
  · exact ⟨0, m, by omega, hsmall, by omega⟩
  · exact ⟨m / 2 ^ 52 - 1, m % 2 ^ 52 + 2 ^ 52, by omega, by omega, by omega⟩

theorem Fp.unitsAt_lt_succ (m : Nat) : Fp.unitsAt m < Fp.unitsAt (m + 1) := by
  obtain ⟨e, q, rfl, hq, he⟩ := Fp.unitsAt_eq m
  rw [Nat.add_assoc, Fp.unitsAt_scaled hq.le he, Fp.unitsAt_scaled hq (fun h => Nat.le_succ_of_le (he h))]
  exact Nat.mul_lt_mul_of_pos_right (Nat.lt_succ_self q) (Nat.two_pow_pos e)

theorem Fp.unitsAt_strictMono : StrictMono Fp.unitsAt := strictMono_nat_of_lt_succ Fp.unitsAt_lt_succ

@[simp] theorem Fp.unitsAt_zero : Fp.unitsAt 0 = 0 := rfl

/-- The infinities' magnitude would be 2^2098 units. -/
theorem Fp.unitsAt_infMagnitude : Fp.unitsAt Fp.infMagnitude = 2 ^ 52 * 2 ^ 2046 := by
  have h : Fp.infMagnitude = 2046 * 2 ^ 52 + 2 ^ 52 := by unfold Fp.infMagnitude; omega
  rw [h, Fp.unitsAt_scaled (by omega) (fun _ => Nat.le_refl _)]

/-! ### One rounding -/

/-- `m` is the magnitude nearest to `v` units, the even one at a tie, with no bound on the exponent. -/
def Fp.RoundsMag (v : ℝ) (m : Nat) : Prop :=
  ∃ lo : Nat, (Fp.unitsAt lo : ℝ) ≤ v ∧ v < Fp.unitsAt (lo + 1) ∧
    ((m = lo ∧ (2 * v < Fp.unitsAt lo + Fp.unitsAt (lo + 1) ∨
        (2 * v = Fp.unitsAt lo + Fp.unitsAt (lo + 1) ∧ lo % 2 = 0))) ∨
     (m = lo + 1 ∧ (Fp.unitsAt lo + Fp.unitsAt (lo + 1) < 2 * v ∨
        (2 * v = Fp.unitsAt lo + Fp.unitsAt (lo + 1) ∧ lo % 2 = 1))))

/-- The magnitude `Fp.round` packs, before the bound of the format. -/
def Fp.roundMag (n k : Nat) : Nat :=
  (Fp.dropped n k - k) * 2 ^ 52 +
    (if 2 ^ Fp.dropped n k < 2 * (n % 2 ^ Fp.dropped n k) ∨
        (2 ^ Fp.dropped n k = 2 * (n % 2 ^ Fp.dropped n k) ∧ n / 2 ^ Fp.dropped n k % 2 = 1)
      then n / 2 ^ Fp.dropped n k + 1 else n / 2 ^ Fp.dropped n k)

theorem Fp.round_eq_pack (neg : Bool) (n k : Nat) :
    Fp.round neg n k = Fp.pack neg (Min.min (Fp.roundMag n k) Fp.infMagnitude) := rfl

theorem Fp.le_dropped (n k : Nat) : k ≤ Fp.dropped n k := Nat.le_max_right _ _

/-- What is kept fits a significand. -/
theorem Fp.kept_lt (n k : Nat) : n / 2 ^ Fp.dropped n k < 2 ^ 53 := by
  rw [Nat.div_lt_iff_lt_mul (Nat.two_pow_pos _), ← Nat.pow_add]
  refine Nat.lt_of_lt_of_le Nat.lt_log2_self (Nat.pow_le_pow_right (by omega) ?_)
  have : n.log2 - 52 ≤ Fp.dropped n k := Nat.le_max_left _ _
  omega

/-- Where bits of the integer part are dropped, what is kept fills a significand. -/
theorem Fp.le_kept {n k : Nat} (h : 0 < Fp.dropped n k - k) : 2 ^ 52 ≤ n / 2 ^ Fp.dropped n k := by
  have hd : Fp.dropped n k = n.log2 - 52 := by unfold Fp.dropped at h ⊢; omega
  have hlog : n.log2 = 52 + Fp.dropped n k := by omega
  have hn : n ≠ 0 := by
    rintro rfl
    rw [Nat.log2_zero] at hlog
    omega
  rw [Nat.le_div_iff_mul_le (Nat.two_pow_pos _), ← Nat.pow_add, ← hlog]
  exact Nat.log2_self_le hn

/-- The magnitude of the kept integer. -/
def Fp.keptMag (n k : Nat) : Nat := (Fp.dropped n k - k) * 2 ^ 52 + n / 2 ^ Fp.dropped n k

theorem Fp.unitsAt_keptMag (n k : Nat) :
    Fp.unitsAt (Fp.keptMag n k) * 2 ^ k = n / 2 ^ Fp.dropped n k * 2 ^ Fp.dropped n k := by
  rw [Fp.keptMag, Fp.unitsAt_scaled (Fp.kept_lt n k).le Fp.le_kept, Nat.mul_assoc, ← Nat.pow_add,
    Nat.sub_add_cancel (Fp.le_dropped n k)]

theorem Fp.unitsAt_keptMag_succ (n k : Nat) :
    Fp.unitsAt (Fp.keptMag n k + 1) * 2 ^ k = (n / 2 ^ Fp.dropped n k + 1) * 2 ^ Fp.dropped n k := by
  rw [Fp.keptMag, Nat.add_assoc, Fp.unitsAt_scaled (Fp.kept_lt n k)
    (fun h => Nat.le_succ_of_le (Fp.le_kept h)), Nat.mul_assoc, ← Nat.pow_add,
    Nat.sub_add_cancel (Fp.le_dropped n k)]

/-- The parity of a kept magnitude is that of the kept integer. -/
theorem Fp.keptMag_mod_two (n k : Nat) : Fp.keptMag n k % 2 = n / 2 ^ Fp.dropped n k % 2 := by
  unfold Fp.keptMag
  omega

/-- `n` and the exact value `w` stand on the same side of every half unit of the last place kept, which is
all that a rounding looks at. -/
def Fp.SameSides (n k : Nat) (w : ℝ) : Prop :=
  ∀ c : Nat, (2 * n < c * 2 ^ Fp.dropped n k ↔ 2 * w < (c * 2 ^ Fp.dropped n k : Nat)) ∧
    (c * 2 ^ Fp.dropped n k < 2 * n ↔ ((c * 2 ^ Fp.dropped n k : Nat) : ℝ) < 2 * w)

/-- An integer stands on its own side. -/
theorem Fp.sameSides_self (n k : Nat) : Fp.SameSides n k n := by
  intro c
  exact ⟨by exact_mod_cast Iff.rfl, by exact_mod_cast Iff.rfl⟩

/-- The rounded magnitude is nearest to every exact value on the same side of all half units. -/
theorem Fp.roundsMag_of_sameSides {n k : Nat} {v : ℝ} (h : Fp.SameSides n k (v * 2 ^ k)) :
    Fp.RoundsMag v (Fp.roundMag n k) := by
  set d := Fp.dropped n k with hd
  set q := n / 2 ^ d with hq
  have hsplit : n = q * 2 ^ d + n % 2 ^ d := by rw [hq, Nat.mul_comm]; exact (Nat.div_add_mod n _).symm
  have hrest : n % 2 ^ d < 2 ^ d := Nat.mod_lt _ (Nat.two_pow_pos d)
  have hpos : (0 : ℝ) < 2 ^ k := by positivity
  have hlo : (Fp.unitsAt (Fp.keptMag n k) : ℝ) * 2 ^ k = q * 2 ^ d := by
    exact_mod_cast Fp.unitsAt_keptMag n k
  have hhi : (Fp.unitsAt (Fp.keptMag n k + 1) : ℝ) * 2 ^ k = (q + 1) * 2 ^ d := by
    exact_mod_cast Fp.unitsAt_keptMag_succ n k
  have hlow := h (2 * q)
  have hhigh := h (2 * (q + 1))
  rw [← hd, Nat.mul_assoc] at hlow
  rw [← hd, Nat.mul_assoc, Nat.add_mul] at hhigh
  have hbelow : (q : ℝ) * 2 ^ d ≤ v * 2 ^ k := by
    have := (not_congr hlow.1).mp (by omega)
    push_cast at this
    linarith
  have habove : v * 2 ^ k < ((q : ℝ) + 1) * 2 ^ d := by
    have := hhigh.1.mp (by omega)
    push_cast at this
    linarith
  have hmid := h (2 * q + 1)
  have hmidNat : (2 * q + 1) * 2 ^ d = 2 * (q * 2 ^ d) + 2 ^ d := by ring
  rw [← hd, hmidNat] at hmid
  push_cast at hmid
  refine ⟨Fp.keptMag n k, ?_, ?_, ?_⟩
  · exact le_of_mul_le_mul_right (hlo ▸ hbelow) hpos
  · exact lt_of_mul_lt_mul_right (hhi ▸ habove) hpos.le
  have hsum : ((Fp.unitsAt (Fp.keptMag n k) : ℝ) + Fp.unitsAt (Fp.keptMag n k + 1)) * 2 ^ k =
      2 * (q * 2 ^ d) + 2 ^ d := by rw [add_mul, hlo, hhi]; ring
  have hlt : 2 * v < Fp.unitsAt (Fp.keptMag n k) + Fp.unitsAt (Fp.keptMag n k + 1) ↔
      2 * (n % 2 ^ d) < 2 ^ d := by
    rw [← mul_lt_mul_iff_left₀ hpos, hsum, mul_assoc, ← hmid.1]
    omega
  have hgt : Fp.unitsAt (Fp.keptMag n k) + Fp.unitsAt (Fp.keptMag n k + 1) < 2 * v ↔
      2 ^ d < 2 * (n % 2 ^ d) := by
    rw [← mul_lt_mul_iff_left₀ hpos, hsum, mul_assoc, ← hmid.2]
    omega
  have hparity := Fp.keptMag_mod_two n k
  rw [← hd, ← hq] at hparity
  have heq : ¬ (2 * (n % 2 ^ d) < 2 ^ d) → ¬ (2 ^ d < 2 * (n % 2 ^ d)) →
      2 * v = Fp.unitsAt (Fp.keptMag n k) + Fp.unitsAt (Fp.keptMag n k + 1) := fun h1 h2 =>
    le_antisymm (not_lt.mp (mt hgt.mp h2)) (not_lt.mp (mt hlt.mp h1))
  simp only [Fp.roundMag, ← hd, ← hq]
  split_ifs with hup
  · refine .inr ⟨by rw [Fp.keptMag, ← hd, ← hq]; omega, ?_⟩
    rcases hup with hmore | ⟨htie, hodd⟩
    · exact .inl (hgt.mpr hmore)
    · exact .inr ⟨heq (by omega) (by omega), by omega⟩
  · refine .inl ⟨by rw [Fp.keptMag, ← hd, ← hq], ?_⟩
    by_cases hless : 2 * (n % 2 ^ d) < 2 ^ d
    · exact .inl (hlt.mpr hless)
    · exact .inr ⟨heq hless (by omega), by omega⟩

/-- `Fp.round` on `n` units of 2^-(1074+k) rounds the exact value `n / 2^k`. -/
theorem Fp.roundsMag_round (n k : Nat) : Fp.RoundsMag ((n : ℝ) / 2 ^ k) (Fp.roundMag n k) := by
  apply Fp.roundsMag_of_sameSides
  rw [div_mul_cancel₀ _ (by positivity)]
  exact Fp.sameSides_self n k

end Sys2Proof
end

section
/-! PROOFS of the number system family, second part: the laws of a rounded magnitude (00_scope.md R8). -/

namespace Sys2Proof

namespace Fp.RoundsMag

variable {v : ℝ} {m : Nat}

/-- A magnitude not above the exact value is not above its rounding. -/
theorem le {M : Nat} (h : Fp.RoundsMag v m) (hM : (Fp.unitsAt M : ℝ) ≤ v) : M ≤ m := by
  obtain ⟨lo, -, hhi, hm⟩ := h
  have hlt : Fp.unitsAt M < Fp.unitsAt (lo + 1) := by exact_mod_cast hM.trans_lt hhi
  have := Fp.unitsAt_strictMono.lt_iff_lt.mp hlt
  rcases hm with ⟨rfl, -⟩ | ⟨rfl, -⟩ <;> omega

/-- A magnitude not below the exact value is not below its rounding. -/
theorem ge {M : Nat} (h : Fp.RoundsMag v m) (hM : v ≤ Fp.unitsAt M) : m ≤ M := by
  obtain ⟨lo, hlo, -, hm⟩ := h
  have hgap : (Fp.unitsAt lo : ℝ) < Fp.unitsAt (lo + 1) := by exact_mod_cast Fp.unitsAt_lt_succ lo
  rcases hm with ⟨rfl, -⟩ | ⟨rfl, hup⟩
  · have hle : Fp.unitsAt m ≤ Fp.unitsAt M := by exact_mod_cast hlo.trans hM
    exact Fp.unitsAt_strictMono.le_iff_le.mp hle
  · have hlt : (Fp.unitsAt lo : ℝ) < Fp.unitsAt M := by
      rcases hup with hmore | ⟨htie, -⟩ <;> linarith
    exact Fp.unitsAt_strictMono.lt_iff_lt.mp (by exact_mod_cast hlt)

/-- No magnitude is nearer to the exact value than its rounding. -/
theorem nearest (h : Fp.RoundsMag v m) (M : Nat) :
    |(Fp.unitsAt m : ℝ) - v| ≤ |(Fp.unitsAt M : ℝ) - v| := by
  obtain ⟨lo, hlo, hhi, hm⟩ := h
  have hside : (Fp.unitsAt M : ℝ) ≤ Fp.unitsAt lo ∨ (Fp.unitsAt (lo + 1) : ℝ) ≤ Fp.unitsAt M := by
    rcases Nat.lt_or_ge lo M with hM | hM
    · exact .inr (by exact_mod_cast Fp.unitsAt_strictMono.monotone hM)
    · exact .inl (by exact_mod_cast Fp.unitsAt_strictMono.monotone hM)
  have hM : |(Fp.unitsAt lo : ℝ) - v| ≤ |(Fp.unitsAt M : ℝ) - v| ∨
      |(Fp.unitsAt (lo + 1) : ℝ) - v| ≤ |(Fp.unitsAt M : ℝ) - v| := by
    rcases hside with hM | hM
    · left
      rw [abs_of_nonpos (by linarith), abs_of_nonpos (by linarith)]
      linarith
    · right
      rw [abs_of_pos (by linarith), abs_of_pos (by linarith)]
      linarith
  have hlow : |(Fp.unitsAt lo : ℝ) - v| = v - Fp.unitsAt lo := by rw [abs_sub_comm, abs_of_nonneg (by linarith)]
  have hhigh : |(Fp.unitsAt (lo + 1) : ℝ) - v| = Fp.unitsAt (lo + 1) - v := abs_of_pos (by linarith)
  rcases hm with ⟨rfl, hless | ⟨htie, -⟩⟩ | ⟨rfl, hmore | ⟨htie, -⟩⟩ <;>
    rcases hM with hM | hM <;> linarith

/-- At a tie the rounding is even. -/
theorem even_of_tie (h : Fp.RoundsMag v m) {M : Nat}
    (htie : |(Fp.unitsAt m : ℝ) - v| = |(Fp.unitsAt M : ℝ) - v|) : M = m ∨ m % 2 = 0 := by
  by_cases heq : M = m
  · exact .inl heq
  right
  have hnear := h.nearest
  obtain ⟨lo, hlo, hhi, hm⟩ := h
  have hlow : |(Fp.unitsAt lo : ℝ) - v| = v - Fp.unitsAt lo := by
    rw [abs_sub_comm, abs_of_nonneg (by linarith)]
  have hhigh : |(Fp.unitsAt (lo + 1) : ℝ) - v| = Fp.unitsAt (lo + 1) - v := abs_of_pos (by linarith)
  have hstrict : ∀ {i j : Nat}, i < j → (Fp.unitsAt i : ℝ) < Fp.unitsAt j := fun hij => by
    exact_mod_cast Fp.unitsAt_strictMono hij
  have hMabs : |(Fp.unitsAt M : ℝ) - v| = v - Fp.unitsAt M ∧ M ≤ lo ∨
      |(Fp.unitsAt M : ℝ) - v| = Fp.unitsAt M - v ∧ lo + 1 ≤ M := by
    rcases Nat.lt_or_ge lo M with hM | hM
    · have hge : (Fp.unitsAt (lo + 1) : ℝ) ≤ Fp.unitsAt M := by
        exact_mod_cast Fp.unitsAt_strictMono.monotone hM
      exact .inr ⟨abs_of_pos (by linarith), hM⟩
    · have hle : (Fp.unitsAt M : ℝ) ≤ Fp.unitsAt lo := by
        exact_mod_cast Fp.unitsAt_strictMono.monotone hM
      exact .inl ⟨by rw [abs_sub_comm, abs_of_nonneg (by linarith)], hM⟩
  rcases hm with ⟨rfl, hdown⟩ | ⟨rfl, hup⟩
  · rcases hMabs with ⟨habs, hM⟩ | ⟨habs, hM⟩
    · have := hstrict (Nat.lt_of_le_of_ne hM heq)
      linarith
    · rcases hdown with hless | ⟨-, heven⟩
      · have := hnear (m + 1)
        have hge : (Fp.unitsAt (m + 1) : ℝ) ≤ Fp.unitsAt M := by
          exact_mod_cast Fp.unitsAt_strictMono.monotone hM
        linarith
      · exact heven
  · rcases hMabs with ⟨habs, hM⟩ | ⟨habs, hM⟩
    · rcases hup with hmore | ⟨-, hodd⟩
      · have hle : (Fp.unitsAt M : ℝ) ≤ Fp.unitsAt lo := by
          exact_mod_cast Fp.unitsAt_strictMono.monotone hM
        linarith
      · omega
    · have := hstrict (Nat.lt_of_le_of_ne hM (Ne.symm heq))
      linarith

/-- Above an odd magnitude the rounding is exactly from half way to the next one on. -/
theorem succ_le_iff {M : Nat} (h : Fp.RoundsMag v m) (hodd : M % 2 = 1) :
    M + 1 ≤ m ↔ (Fp.unitsAt M : ℝ) + Fp.unitsAt (M + 1) ≤ 2 * v := by
  obtain ⟨lo, hlo, hhi, hm⟩ := h
  have hgap : (Fp.unitsAt M : ℝ) < Fp.unitsAt (M + 1) := by exact_mod_cast Fp.unitsAt_lt_succ M
  rcases Nat.lt_trichotomy lo M with hlt | rfl | hgt
  · have hle : (Fp.unitsAt (lo + 1) : ℝ) ≤ Fp.unitsAt M := by
      exact_mod_cast Fp.unitsAt_strictMono.monotone hlt
    exact iff_of_false (by omega) (by linarith)
  · rcases hm with ⟨rfl, hdown⟩ | ⟨rfl, hup⟩
    · refine iff_of_false (by omega) ?_
      rcases hdown with hless | ⟨-, heven⟩
      · linarith
      · omega
    · exact iff_of_true le_rfl (by rcases hup with hmore | ⟨htie, -⟩ <;> linarith)
  · have hge : (Fp.unitsAt (M + 1) : ℝ) ≤ Fp.unitsAt lo := by
      exact_mod_cast Fp.unitsAt_strictMono.monotone hgt
    exact iff_of_true (by omega) (by linarith)

end Fp.RoundsMag

/-- The largest finite magnitude. -/
def Fp.topMagnitude : Nat := 2047 * 2 ^ 52 - 1

theorem Fp.topMagnitude_succ : Fp.topMagnitude + 1 = Fp.infMagnitude := by
  unfold Fp.topMagnitude Fp.infMagnitude
  omega

theorem Fp.unitsAt_topMagnitude : Fp.unitsAt Fp.topMagnitude = (2 ^ 53 - 1) * 2 ^ 2045 := by
  have h : Fp.topMagnitude = 2045 * 2 ^ 52 + (2 ^ 53 - 1) := by unfold Fp.topMagnitude; omega
  rw [h, Fp.unitsAt_scaled (by omega) (fun _ => by omega)]

/-- Half a unit above the largest finite magnitude is half way to the infinities'. -/
theorem Fp.unitsAt_topMagnitude_add :
    (Fp.unitsAt Fp.topMagnitude : ℝ) + Fp.unitsAt (Fp.topMagnitude + 1) =
      2 * ((2 ^ 54 - 1) * 2 ^ 2044) := by
  rw [Fp.topMagnitude_succ, Fp.unitsAt_topMagnitude, Fp.unitsAt_infMagnitude, pow_succ 2 2044,
    pow_add 2 2044 2, Nat.cast_mul, Nat.cast_mul, Nat.cast_mul, Nat.cast_mul, Nat.cast_pow]
  generalize ((2 : ℕ) : ℝ) ^ 2044 = unit
  norm_num
  ring

/-- The rounding leaves the finite magnitudes exactly from half a unit above the largest one on. -/
theorem Fp.RoundsMag.infMagnitude_le_iff {v : ℝ} {m : Nat} (h : Fp.RoundsMag v m) :
    Fp.infMagnitude ≤ m ↔ (2 ^ 54 - 1) * 2 ^ 2044 ≤ v := by
  rw [← Fp.topMagnitude_succ, h.succ_le_iff (by unfold Fp.topMagnitude; omega),
    Fp.unitsAt_topMagnitude_add]
  exact mul_le_mul_iff_right₀ two_pos

/-! ### Fields of a packed answer -/

theorem Fp.sign_eq (x : NUM) : Fp.sign x = decide (2 ^ 63 ≤ x.toNat) := by
  rw [Fp.sign, ← BitVec.msb_eq_getLsbD_last, BitVec.msb_eq_decide]

theorem Fp.magnitude_eq (x : NUM) : Fp.magnitude x = x.toNat % 2 ^ 63 := by
  rw [Fp.magnitude, ← Fp.toNat_extractLsb'_magnitude, BitVec.extractLsb'_toNat]
  simp

theorem Fp.toNat_pack {m : Nat} (neg : Bool) (hm : m < 2 ^ 63) :
    (Fp.pack neg m).toNat = (if neg then 2 ^ 63 else 0) + m := by
  rw [Fp.pack, BitVec.toNat_ofNat]
  cases neg <;> simp <;> omega

theorem Fp.sign_pack {m : Nat} (neg : Bool) (hm : m < 2 ^ 63) : Fp.sign (Fp.pack neg m) = neg := by
  rw [Fp.sign_eq, Fp.toNat_pack neg hm]
  cases neg
  · simp
    omega
  · simp

theorem Fp.magnitude_pack {m : Nat} (neg : Bool) (hm : m < 2 ^ 63) :
    Fp.magnitude (Fp.pack neg m) = m := by
  rw [Fp.magnitude_eq, Fp.toNat_pack neg hm]
  cases neg <;> simp <;> omega

/-- A NUM is its sign and its magnitude. -/
theorem Fp.ext {x y : NUM} (hs : Fp.sign x = Fp.sign y) (hm : Fp.magnitude x = Fp.magnitude y) :
    x = y := by
  have hx := x.isLt
  have hy := y.isLt
  rw [Fp.sign_eq, Fp.sign_eq, decide_eq_decide] at hs
  rw [Fp.magnitude_eq, Fp.magnitude_eq] at hm
  apply BitVec.eq_of_toNat_eq
  omega

/-- A finite magnitude fits its field. -/
theorem Fp.min_infMagnitude_lt (m : Nat) : Min.min m Fp.infMagnitude < 2 ^ 63 := by
  unfold Fp.infMagnitude
  omega

@[simp] theorem Fp.sign_round (neg : Bool) (n k : Nat) : Fp.sign (Fp.round neg n k) = neg := by
  rw [Fp.round_eq_pack, Fp.sign_pack neg (Fp.min_infMagnitude_lt _)]

theorem Fp.magnitude_round (neg : Bool) (n k : Nat) :
    Fp.magnitude (Fp.round neg n k) = Min.min (Fp.roundMag n k) Fp.infMagnitude := by
  rw [Fp.round_eq_pack, Fp.magnitude_pack neg (Fp.min_infMagnitude_lt _)]

@[simp] theorem Fp.sign_zero (neg : Bool) : Fp.sign (Fp.zero neg) = neg := Fp.sign_pack neg (by omega)

@[simp] theorem Fp.magnitude_zero (neg : Bool) : Fp.magnitude (Fp.zero neg) = 0 :=
  Fp.magnitude_pack neg (by omega)

@[simp] theorem Fp.sign_inf (neg : Bool) : Fp.sign (Fp.inf neg) = neg := Fp.sign_pack neg (by omega)

@[simp] theorem Fp.magnitude_inf (neg : Bool) : Fp.magnitude (Fp.inf neg) = Fp.infMagnitude :=
  Fp.magnitude_pack neg (by omega)

@[simp] theorem Fp.magnitude_neg (x : NUM) : Fp.magnitude (Fp.neg x) = Fp.magnitude x := by
  simp [Fp.magnitude]

@[simp] theorem Fp.sign_neg (x : NUM) : Fp.sign (Fp.neg x) = !Fp.sign x := by
  simp [Fp.sign, Fp.neg]

@[simp] theorem Fp.sign_abs (x : NUM) : Fp.sign (Fp.abs x) = false := by
  simp [Fp.sign, Fp.abs]

@[simp] theorem Fp.magnitude_abs (x : NUM) : Fp.magnitude (Fp.abs x) = Fp.magnitude x := by
  have hmask : (~~~(1#64 <<< 63) : NUM).extractLsb' 0 63 = BitVec.allOnes 63 := rfl
  rw [Fp.magnitude, Fp.magnitude, ← Fp.toNat_extractLsb'_magnitude, ← Fp.toNat_extractLsb'_magnitude,
    Fp.abs, BitVec.extractLsb'_and, hmask, BitVec.and_allOnes]

/-! ### The exact value of a finite answer -/

@[simp] theorem Fp.natAbs_value (x : NUM) : (Fp.value x).natAbs = Fp.units x := by
  unfold Fp.value
  split <;> simp

theorem Fp.abs_value (x : NUM) : |Fp.value x| = (Fp.units x : Int) := by
  rw [Int.abs_eq_natAbs, Fp.natAbs_value]

theorem Fp.units_eq_zero_iff (x : NUM) : Fp.units x = 0 ↔ Fp.isZero x = true := by
  rw [Fp.units_eq_unitsAt, Fp.isZero_iff_magnitude]
  constructor
  · intro h
    by_contra hne
    have := Fp.unitsAt_strictMono (Nat.pos_of_ne_zero hne)
    rw [h] at this
    omega
  · rintro h
    rw [h, Fp.unitsAt_zero]

theorem Fp.value_eq_zero_iff (x : NUM) : Fp.value x = 0 ↔ Fp.isZero x = true := by
  rw [← Int.natAbs_eq_zero, Fp.natAbs_value, Fp.units_eq_zero_iff]

/-- Settles O51: the sign is packed as given, and the magnitude reaches the infinities' exactly from half
a unit above the largest finite one on. -/
theorem roundingOverflowsToInfinity : Obligations.RoundingOverflowsToInfinity := by
  unfold Obligations.RoundingOverflowsToInfinity
  intro neg n k
  have hfinite : Fp.finite (Fp.round neg n k) = false ↔ Fp.infMagnitude ≤ Fp.roundMag n k := by
    rw [← Bool.not_eq_true, Fp.finite_iff, Fp.magnitude_round]
    omega
  refine ⟨?_, fun h => ?_, Fp.sign_round neg n k⟩
  · rw [hfinite, (Fp.roundsMag_round n k).infMagnitude_le_iff, le_div_iff₀ (by positivity)]
    have hcast : ((2 : ℝ) ^ 54 - 1) * 2 ^ 2044 * 2 ^ k = ((2 ^ 54 - 1) * 2 ^ 2044 * 2 ^ k : ℕ) := by
      rw [Nat.cast_mul, Nat.cast_mul, Nat.cast_pow, Nat.cast_pow, Nat.cast_ofNat,
        Nat.cast_sub Nat.one_le_two_pow]
      norm_num
    rw [hcast, Nat.cast_le]
  · rw [hfinite] at h
    rw [Fp.round_eq_pack, Nat.min_eq_right h]
    rfl

end Sys2Proof
end

section
/-! PROOFS of the number system family, third part: the real value of a NUM, and each operation as the
exact real result rounded once (00_scope.md R8, R10). -/

namespace Sys2Proof

/-! ### Real values -/

/-- The real value of a finite NUM. -/
noncomputable def Fp.real (x : NUM) : ℝ := (Fp.value x : ℝ) / 2 ^ 1074

theorem Fp.real_mul_pow (x : NUM) : Fp.real x * 2 ^ 1074 = Fp.value x :=
  div_mul_cancel₀ _ (pow_ne_zero _ two_ne_zero)

theorem Fp.abs_real_mul_pow (x : NUM) : |Fp.real x| * 2 ^ 1074 = Fp.units x := by
  have h : |(Fp.value x : ℝ)| = (Fp.units x : ℝ) := by exact_mod_cast Fp.abs_value x
  rw [Fp.real, abs_div, abs_of_pos (pow_pos two_pos 1074 : (0 : ℝ) < 2 ^ 1074), h]
  exact div_mul_cancel₀ _ (pow_ne_zero _ two_ne_zero)

theorem Fp.abs_real_eq (x : NUM) : |Fp.real x| * 2 ^ 1074 = Fp.unitsAt (Fp.magnitude x) := by
  rw [Fp.abs_real_mul_pow, Fp.units_eq_unitsAt]

/-- Real values compare as the integers they are multiples by. -/
theorem Fp.real_le_real_iff (x y : NUM) : Fp.real x ≤ Fp.real y ↔ Fp.value x ≤ Fp.value y := by
  rw [Fp.real, Fp.real, div_le_div_iff_of_pos_right (pow_pos two_pos 1074), Int.cast_le]

theorem Fp.real_eq_real_iff (x y : NUM) : Fp.real x = Fp.real y ↔ Fp.value x = Fp.value y := by
  rw [le_antisymm_iff, Fp.real_le_real_iff, Fp.real_le_real_iff, ← le_antisymm_iff]

/-- The order of R11 is that of the values: both are the magnitude with the sign, and the units rise
strictly with the magnitude. -/
theorem Fp.value_le_iff_ord_le (x y : NUM) : Fp.value x ≤ Fp.value y ↔ Fp.ord x ≤ Fp.ord y := by
  have hxy := Fp.unitsAt_strictMono.le_iff_le (a := Fp.magnitude x) (b := Fp.magnitude y)
  have hyx := Fp.unitsAt_strictMono.le_iff_le (a := Fp.magnitude y) (b := Fp.magnitude x)
  have hx := Fp.unitsAt_strictMono.le_iff_le (a := Fp.magnitude x) (b := 0)
  have hy := Fp.unitsAt_strictMono.le_iff_le (a := Fp.magnitude y) (b := 0)
  rw [Fp.unitsAt_zero] at hx hy
  simp only [Fp.value, Fp.ord_eq, Fp.units_eq_unitsAt]
  split <;> split <;> omega

theorem Fp.value_eq_iff_ord_eq (x y : NUM) : Fp.value x = Fp.value y ↔ Fp.ord x = Fp.ord y := by
  rw [le_antisymm_iff, Fp.value_le_iff_ord_le, Fp.value_le_iff_ord_le, ← le_antisymm_iff]

theorem Fp.value_lt_iff_ord_lt (x y : NUM) : Fp.value x < Fp.value y ↔ Fp.ord x < Fp.ord y := by
  rw [← not_le, Fp.value_le_iff_ord_le, not_le]

theorem Fp.real_le_iff_ord_le (x y : NUM) : Fp.real x ≤ Fp.real y ↔ Fp.ord x ≤ Fp.ord y := by
  rw [Fp.real_le_real_iff, Fp.value_le_iff_ord_le]

theorem Fp.real_lt_iff_ord_lt (x y : NUM) : Fp.real x < Fp.real y ↔ Fp.ord x < Fp.ord y := by
  rw [← not_le, Fp.real_le_iff_ord_le, not_le]

theorem Fp.le_iff_real {x y : NUM} (hx : Fp.isNaN x = false) (hy : Fp.isNaN y = false) :
    Fp.le x y = true ↔ Fp.real x ≤ Fp.real y := by
  simp [Fp.le_iff, hx, hy, Fp.real_le_iff_ord_le]

theorem Fp.lt_iff_real {x y : NUM} (hx : Fp.isNaN x = false) (hy : Fp.isNaN y = false) :
    Fp.lt x y = true ↔ Fp.real x < Fp.real y := by
  simp [Fp.lt_iff, hx, hy, Fp.real_lt_iff_ord_lt]

theorem Fp.real_eq_zero_iff (x : NUM) : Fp.real x = 0 ↔ Fp.isZero x = true := by
  rw [Fp.real, div_eq_zero_iff, or_iff_left (pow_ne_zero _ two_ne_zero), Int.cast_eq_zero,
    Fp.value_eq_zero_iff]

theorem Fp.real_of_isZero {x : NUM} (h : Fp.isZero x = true) : Fp.real x = 0 := (Fp.real_eq_zero_iff x).mpr h

theorem Fp.real_nonpos_iff (x : NUM) : Fp.real x ≤ 0 ↔ Fp.ord x ≤ 0 := by
  rw [← Fp.ord_zero, ← Fp.real_le_iff_ord_le, Fp.real_of_isZero (x := Const.zero) rfl]

theorem Fp.real_nonneg_iff (x : NUM) : 0 ≤ Fp.real x ↔ 0 ≤ Fp.ord x := by
  rw [← Fp.ord_zero, ← Fp.real_le_iff_ord_le, Fp.real_of_isZero (x := Const.zero) rfl]

theorem Fp.real_nonneg_of_sign {x : NUM} (h : Fp.sign x = false) : 0 ≤ Fp.real x := by
  rw [Fp.real_nonneg_iff, Fp.ord_eq, h]
  simp

theorem Fp.real_nonpos_of_sign {x : NUM} (h : Fp.sign x = true) : Fp.real x ≤ 0 := by
  rw [Fp.real_nonpos_iff, Fp.ord_eq, h]
  simp

@[simp] theorem Fp.ord_neg (x : NUM) : Fp.ord (Fp.neg x) = -Fp.ord x := by
  cases h : Fp.sign x <;> simp [Fp.ord_eq, h]

@[simp] theorem Fp.value_neg (x : NUM) : Fp.value (Fp.neg x) = -Fp.value x := by
  cases h : Fp.sign x <;> simp [Fp.value, Fp.units_eq_unitsAt, h]

@[simp] theorem Fp.real_neg (x : NUM) : Fp.real (Fp.neg x) = -Fp.real x := by
  simp [Fp.real, neg_div]

@[simp] theorem Fp.finite_neg (x : NUM) : Fp.finite (Fp.neg x) = Fp.finite x := by simp [Fp.finite]

@[simp] theorem Fp.isNaN_neg (x : NUM) : Fp.isNaN (Fp.neg x) = Fp.isNaN x := by simp [Fp.isNaN]

@[simp] theorem Fp.isInf_neg (x : NUM) : Fp.isInf (Fp.neg x) = Fp.isInf x := by simp [Fp.isInf]

/-- Settles O54: the comparisons are those of the order, which is that of the values; with a NaN their
first conjuncts fail. -/
theorem comparisonsFollowTheValues : Obligations.ComparisonsFollowTheValues := by
  unfold Obligations.ComparisonsFollowTheValues
  refine fun a b => ⟨fun ha hb => ?_, fun h => ?_⟩
  · simp [Fp.lt_iff, Fp.le_iff, Fp.eq_iff, Fp.isNaN_of_finite ha, Fp.isNaN_of_finite hb,
      Fp.value_lt_iff_ord_lt, Fp.value_le_iff_ord_le, Fp.value_eq_iff_ord_eq]
  · rcases h with h | h <;> simp [Fp.lt, Fp.le, Fp.eq, h]

/-! ### An exact real value rounded once -/

/-- `r` is the real `v` rounded to nearest, ties to even, overflow to an infinity; a zero of either sign
for a `v` of 0. -/
structure Fp.Rounds (v : ℝ) (r : NUM) : Prop where
  mag : ∃ m, Fp.RoundsMag (|v| * 2 ^ 1074) m ∧ Fp.magnitude r = Min.min m Fp.infMagnitude
  neg : v < 0 → Fp.sign r = true
  pos : 0 < v → Fp.sign r = false

theorem Fp.ord_le_magnitude (x : NUM) : Fp.ord x ≤ Fp.magnitude x ∧ -(Fp.magnitude x : Int) ≤ Fp.ord x := by
  rw [Fp.ord_eq]
  split <;> omega

namespace Fp.Rounds

variable {v : ℝ} {r : NUM}

theorem isNaN (h : Fp.Rounds v r) : Fp.isNaN r = false := by
  obtain ⟨m, -, hr⟩ := h.mag
  rw [Fp.isNaN_eq_false_iff, hr]
  exact Nat.min_le_right _ _

/-- A finite NUM no larger in size than the exact value is no larger in size than its rounding. -/
theorem magnitude_le {y : NUM} (h : Fp.Rounds v r) (hy : Fp.finite y = true) (hle : |Fp.real y| ≤ |v|) :
    Fp.magnitude y ≤ Fp.magnitude r := by
  obtain ⟨m, hm, hr⟩ := h.mag
  have hyInf := (Fp.finite_iff y).mp hy
  have : Fp.magnitude y ≤ m := by
    apply hm.le
    rw [← Fp.abs_real_eq]
    exact mul_le_mul_of_nonneg_right hle (by positivity)
  omega

/-- A NUM no smaller in size than the exact value is no smaller in size than its rounding. -/
theorem le_magnitude {y : NUM} (h : Fp.Rounds v r) (hle : |v| ≤ |Fp.real y|) :
    Fp.magnitude r ≤ Fp.magnitude y := by
  obtain ⟨m, hm, hr⟩ := h.mag
  have : m ≤ Fp.magnitude y := by
    apply hm.ge
    rw [← Fp.abs_real_eq]
    exact mul_le_mul_of_nonneg_right hle (by positivity)
  omega

theorem isZero_of_zero (h : Fp.Rounds 0 r) : Fp.isZero r = true := by
  have := h.le_magnitude (y := 0#64) (by simp)
  rw [Fp.isZero_iff_magnitude]
  exact Nat.le_zero.mp this

theorem ord_nonneg (h : Fp.Rounds v r) (hv : 0 ≤ v) : 0 ≤ Fp.ord r := by
  rcases hv.eq_or_lt with rfl | hpos
  · exact ((Fp.ord_eq_zero_iff r).mpr h.isZero_of_zero).ge
  · simp [Fp.ord_eq, h.pos hpos]

theorem ord_nonpos (h : Fp.Rounds v r) (hv : v ≤ 0) : Fp.ord r ≤ 0 := by
  rcases hv.eq_or_lt with rfl | hneg
  · exact ((Fp.ord_eq_zero_iff r).mpr h.isZero_of_zero).le
  · simp [Fp.ord_eq, h.neg hneg]

/-- A finite NUM not above the exact value is not above its rounding. -/
theorem le_ord {y : NUM} (h : Fp.Rounds v r) (hy : Fp.finite y = true) (hle : Fp.real y ≤ v) :
    Fp.ord y ≤ Fp.ord r := by
  have hyMag := Fp.ord_le_magnitude y
  have hrMag := Fp.ord_le_magnitude r
  rcases le_or_gt 0 v with hv | hv
  · rcases le_or_gt (Fp.real y) 0 with hy0 | hy0
    · exact ((Fp.real_nonpos_iff y).mp hy0).trans (h.ord_nonneg hv)
    · have hmag := h.magnitude_le hy (by rwa [abs_of_pos hy0, abs_of_nonneg hv])
      have hr : Fp.ord r = Fp.magnitude r := by simp [Fp.ord_eq, h.pos (hy0.trans_le hle)]
      omega
  · have hy0 : Fp.real y < 0 := hle.trans_lt hv
    have hmag := h.le_magnitude (y := y) (by rw [abs_of_neg hy0, abs_of_neg hv]; linarith)
    have hySign : Fp.sign y = true := by
      by_contra hs
      exact absurd (Fp.real_nonneg_of_sign (by simpa using hs)) (not_le.mpr hy0)
    have hyOrd : Fp.ord y = -(Fp.magnitude y : Int) := by simp [Fp.ord_eq, hySign]
    omega

theorem neg_neg (h : Fp.Rounds v r) : Fp.Rounds (-v) (Fp.neg r) where
  mag := by simpa using h.mag
  neg hv := by simp [h.pos (by linarith)]
  pos hv := by simp [h.neg (by linarith)]

/-- A finite NUM not below the exact value is not below its rounding. -/
theorem ord_le {y : NUM} (h : Fp.Rounds v r) (hy : Fp.finite y = true) (hle : v ≤ Fp.real y) :
    Fp.ord r ≤ Fp.ord y := by
  have := h.neg_neg.le_ord (y := Fp.neg y) (by simpa using hy) (by simpa using hle)
  simpa using this

/-- Between two finite NUMs the rounding is finite. -/
theorem finite_of_abs_le {y : NUM} (h : Fp.Rounds v r) (hy : Fp.finite y = true)
    (hle : |v| ≤ |Fp.real y|) : Fp.finite r = true := by
  rw [Fp.finite_iff] at hy ⊢
  exact (h.le_magnitude hle).trans_lt hy

/-- An exact value that is a NUM's rounds to it, up to the sign of a zero. -/
theorem real_eq {y : NUM} (h : Fp.Rounds v r) (hy : Fp.finite y = true) (hv : v = Fp.real y) :
    Fp.real r = Fp.real y :=
  le_antisymm ((Fp.real_le_iff_ord_le _ _).mpr (h.ord_le hy hv.le))
    ((Fp.real_le_iff_ord_le _ _).mpr (h.le_ord hy hv.ge))

theorem finite_iff (h : Fp.Rounds v r) :
    Fp.finite r = true ↔ |v| * 2 ^ 1074 < (2 ^ 54 - 1) * 2 ^ 2044 := by
  obtain ⟨m, hm, hr⟩ := h.mag
  rw [Fp.finite_iff, hr, ← not_le, ← not_le, ← hm.infMagnitude_le_iff]
  omega

/-- Overflow gives the infinity of the sign. -/
theorem eq_inf (h : Fp.Rounds v r) (hinf : Fp.finite r = false) : r = Fp.inf (Fp.sign r) := by
  obtain ⟨m, hm, hr⟩ := h.mag
  rw [← Bool.not_eq_true, Fp.finite_iff] at hinf
  apply Fp.ext (by simp)
  rw [Fp.magnitude_inf]
  omega

/-- A rounding lies on the side of zero of its exact value, so their distance is that of their sizes. -/
theorem abs_sub_eq (h : Fp.Rounds v r) : |Fp.real r - v| = |(|Fp.real r| - |v|)| := by
  rcases le_total 0 v with hv | hv
  · rw [abs_of_nonneg ((Fp.real_nonneg_iff r).mpr (h.ord_nonneg hv)), abs_of_nonneg hv]
  · rw [abs_of_nonpos ((Fp.real_nonpos_iff r).mpr (h.ord_nonpos hv)), abs_of_nonpos hv,
      neg_sub_neg, abs_sub_comm]

/-- The distance of two sizes, in units. -/
theorem abs_sub_mul_pow (v : ℝ) (y : NUM) : |(|Fp.real y| - |v|)| * 2 ^ 1074 =
    |(Fp.unitsAt (Fp.magnitude y) : ℝ) - |v| * 2 ^ 1074| := by
  rw [← Fp.abs_real_eq, ← sub_mul, abs_mul, abs_of_pos (pow_pos two_pos 1074 : (0 : ℝ) < 2 ^ 1074)]

theorem roundsMag_magnitude (h : Fp.Rounds v r) (hr : Fp.finite r = true) :
    Fp.RoundsMag (|v| * 2 ^ 1074) (Fp.magnitude r) := by
  obtain ⟨m, hm, hmag⟩ := h.mag
  rw [Fp.finite_iff] at hr
  obtain rfl : m = Fp.magnitude r := by omega
  exact hm

/-- A finite rounding is nearest in size. -/
theorem nearest_abs (h : Fp.Rounds v r) (hr : Fp.finite r = true) (y : NUM) :
    |(|Fp.real r| - |v|)| ≤ |(|Fp.real y| - |v|)| := by
  have hpos : (0 : ℝ) < 2 ^ 1074 := by positivity
  rw [← mul_le_mul_iff_left₀ hpos, abs_sub_mul_pow, abs_sub_mul_pow]
  exact (h.roundsMag_magnitude hr).nearest _

/-- A finite rounding is a nearest NUM. -/
theorem nearest (h : Fp.Rounds v r) (hr : Fp.finite r = true) (y : NUM) :
    |Fp.real r - v| ≤ |Fp.real y - v| :=
  calc |Fp.real r - v| = |(|Fp.real r| - |v|)| := h.abs_sub_eq
    _ ≤ |(|Fp.real y| - |v|)| := h.nearest_abs hr y
    _ ≤ |Fp.real y - v| := abs_abs_sub_abs_le _ _

/-- At a tie the significand of a finite rounding is even. -/
theorem even_of_tie (h : Fp.Rounds v r) (hr : Fp.finite r = true) {y : NUM}
    (htie : |Fp.real r - v| = |Fp.real y - v|) : Fp.real y = Fp.real r ∨ Fp.frac r % 2 = 0 := by
  rcases eq_or_ne v 0 with rfl | hv0
  · left
    rw [Fp.real_of_isZero h.isZero_of_zero, sub_zero, abs_zero, sub_zero] at htie
    rw [Fp.real_of_isZero h.isZero_of_zero, abs_eq_zero.mp htie.symm]
  have hsize : |(|Fp.real r| - |v|)| = |(|Fp.real y| - |v|)| :=
    le_antisymm (h.nearest_abs hr y) (by
      rw [← h.abs_sub_eq, htie]
      exact abs_abs_sub_abs_le _ _)
  have hunits := congrArg (· * (2 : ℝ) ^ 1074) hsize
  simp only [abs_sub_mul_pow] at hunits
  rcases (h.roundsMag_magnitude hr).even_of_tie hunits with heq | heven
  · left
    have habs : |Fp.real y| = |Fp.real r| := by
      have hpos : (0 : ℝ) < 2 ^ 1074 := by positivity
      rw [← mul_left_inj' hpos.ne', Fp.abs_real_eq, Fp.abs_real_eq, heq]
    rcases abs_eq_abs.mp habs with hy | hy
    · exact hy
    · rw [hy] at htie
      rcases lt_or_gt_of_ne hv0.symm with hv | hv
      · have hr0 := (Fp.real_nonneg_iff r).mpr (h.ord_nonneg hv.le)
        rw [abs_of_nonpos (by linarith : -Fp.real r - v ≤ 0)] at htie
        rcases abs_cases (Fp.real r - v) with ⟨hc, -⟩ | ⟨hc, -⟩ <;> linarith
      · have hr0 := (Fp.real_nonpos_iff r).mpr (h.ord_nonpos hv.le)
        rw [abs_of_nonneg (by linarith : 0 ≤ -Fp.real r - v)] at htie
        rcases abs_cases (Fp.real r - v) with ⟨hc, -⟩ | ⟨hc, -⟩ <;> linarith
  · right
    rw [← Fp.magnitude_mod]
    omega

end Fp.Rounds

/-! ### The operations -/

/-- `Fp.round` packs the rounding of `±n / 2^k` units. -/
theorem Fp.rounds_round {neg : Bool} {n k : Nat} {v w : ℝ} (hsides : Fp.SameSides n k (w * 2 ^ k))
    (hv : |v| * 2 ^ 1074 = w) (hneg : v < 0 → neg = true) (hpos : 0 < v → neg = false) :
    Fp.Rounds v (Fp.round neg n k) where
  mag := ⟨_, hv ▸ Fp.roundsMag_of_sameSides hsides, Fp.magnitude_round neg n k⟩
  neg h := by rw [Fp.sign_round, hneg h]
  pos h := by rw [Fp.sign_round, hpos h]

theorem Fp.rounds_zero (neg : Bool) : Fp.Rounds 0 (Fp.zero neg) := by
  rw [← Fp.round_zero_units neg 0]
  exact Fp.rounds_round (w := 0) (by simpa using Fp.sameSides_self 0 0) (by simp)
    (fun h => absurd h (lt_irrefl 0)) (fun h => absurd h (lt_irrefl 0))

/-- The sum of two finite operands is their exact sum rounded. -/
theorem Fp.rounds_addCore {a b : NUM} (invalid : NUM) (ha : Fp.finite a = true)
    (hb : Fp.finite b = true) : Fp.Rounds (Fp.real a + Fp.real b) (Fp.addCore invalid a b) := by
  have hsum : Fp.real a + Fp.real b = ((Fp.value a + Fp.value b : Int) : ℝ) / 2 ^ 1074 := by
    rw [Fp.real, Fp.real, ← add_div]
    push_cast
    rfl
  have hpos : (0 : ℝ) < 2 ^ 1074 := by positivity
  simp only [Fp.addCore, Fp.isInf_of_finite ha, Fp.isInf_of_finite hb, Bool.false_eq_true, if_false]
  split
  · next hz =>
    rw [hsum, hz, Int.cast_zero, zero_div]
    exact Fp.rounds_zero _
  · refine Fp.rounds_round (w := ((Fp.value a + Fp.value b).natAbs : ℝ)) ?_ ?_ (fun h => ?_) (fun h => ?_)
    · rw [pow_zero, mul_one]
      exact Fp.sameSides_self _ 0
    · rw [hsum, abs_div, abs_of_pos hpos, div_mul_cancel₀ _ hpos.ne', Nat.cast_natAbs, Int.cast_abs]
    · rw [hsum, div_lt_iff₀ hpos, zero_mul, Int.cast_lt_zero] at h
      exact decide_eq_true h
    · rw [hsum, lt_div_iff₀ hpos, zero_mul, Int.cast_pos] at h
      exact decide_eq_false (by omega)

theorem Fp.rounds_add {a b : NUM} (ha : Fp.finite a = true) (hb : Fp.finite b = true) :
    Fp.Rounds (Fp.real a + Fp.real b) (Fp.add a b) := by
  simp only [Fp.add, Fp.isNaN_of_finite ha, Fp.isNaN_of_finite hb, Bool.or_self, Bool.false_eq_true,
    if_false]
  exact Fp.rounds_addCore _ ha hb

theorem Fp.rounds_sub {a b : NUM} (ha : Fp.finite a = true) (hb : Fp.finite b = true) :
    Fp.Rounds (Fp.real a - Fp.real b) (Fp.sub a b) := by
  simp only [Fp.sub, Fp.isNaN_of_finite ha, Fp.isNaN_of_finite hb, Bool.or_self, Bool.false_eq_true,
    if_false]
  have h := Fp.rounds_addCore (Fp.nan .sub a b) ha ((Fp.finite_neg b).trans hb)
  rwa [Fp.real_neg, ← sub_eq_add_neg] at h

/-- The sign of a product or quotient is the exclusive or of the operands'. -/
theorem Fp.sign_of_real_mul {a b : NUM} :
    (Fp.real a * Fp.real b < 0 → (Fp.sign a != Fp.sign b) = true) ∧
    (0 < Fp.real a * Fp.real b → (Fp.sign a != Fp.sign b) = false) := by
  cases hsa : Fp.sign a <;> cases hsb : Fp.sign b
  · have := mul_nonneg (Fp.real_nonneg_of_sign hsa) (Fp.real_nonneg_of_sign hsb)
    exact ⟨fun h => absurd h (not_lt.mpr this), fun _ => rfl⟩
  · have := mul_nonpos_of_nonneg_of_nonpos (Fp.real_nonneg_of_sign hsa) (Fp.real_nonpos_of_sign hsb)
    exact ⟨fun _ => rfl, fun h => absurd h (not_lt.mpr this)⟩
  · have := mul_nonpos_of_nonpos_of_nonneg (Fp.real_nonpos_of_sign hsa) (Fp.real_nonneg_of_sign hsb)
    exact ⟨fun _ => rfl, fun h => absurd h (not_lt.mpr this)⟩
  · have := mul_nonneg_of_nonpos_of_nonpos (Fp.real_nonpos_of_sign hsa) (Fp.real_nonpos_of_sign hsb)
    exact ⟨fun h => absurd h (not_lt.mpr this), fun _ => rfl⟩

theorem Fp.rounds_mul {a b : NUM} (ha : Fp.finite a = true) (hb : Fp.finite b = true) :
    Fp.Rounds (Fp.real a * Fp.real b) (Fp.mul a b) := by
  rw [Fp.mul_of_finite ha hb]
  refine Fp.rounds_round (w := (Fp.units a * Fp.units b : ℕ) / 2 ^ 1074) ?_ ?_ Fp.sign_of_real_mul.1
    Fp.sign_of_real_mul.2
  · rw [div_mul_cancel₀ _ (pow_ne_zero _ two_ne_zero)]
    exact Fp.sameSides_self _ _
  · rw [eq_div_iff (pow_ne_zero _ two_ne_zero), abs_mul, Nat.cast_mul, ← Fp.abs_real_mul_pow,
      ← Fp.abs_real_mul_pow]
    generalize (2 : ℝ) ^ 1074 = unit
    ring

/-- An integer with one more bit for whether something is left below it stands on the side of the exact
value: every half unit kept is a multiple of four of its steps. -/
theorem Fp.sameSides_sticky {n k g a sticky : Nat} {w : ℝ} (hn : n = (2 * a + sticky) * 2 ^ g)
    (hg : g + 2 ≤ Fp.dropped n k)
    (hw : (sticky = 0 ∧ w = 2 * a * 2 ^ g) ∨
      (sticky = 1 ∧ 2 * a * 2 ^ g < w ∧ w < (2 * a + 2) * 2 ^ g)) : Fp.SameSides n k w := by
  intro c
  obtain ⟨j, hj⟩ := Nat.exists_eq_add_of_le hg
  have hmul : c * 2 ^ Fp.dropped n k = 4 * (c * 2 ^ j) * 2 ^ g := by rw [hj, pow_add, pow_add]; ring
  rw [hmul]
  generalize c * 2 ^ j = b
  have hpos : 0 < 2 ^ g := Nat.two_pow_pos g
  have hposR : (0 : ℝ) < 2 ^ g := by positivity
  have hlt : 2 * n < 4 * b * 2 ^ g ↔ 2 * (2 * a + sticky) < 4 * b := by
    rw [hn, ← mul_assoc]
    exact Nat.mul_lt_mul_right hpos
  have hgt : 4 * b * 2 ^ g < 2 * n ↔ 4 * b < 2 * (2 * a + sticky) := by
    rw [hn, ← mul_assoc]
    exact Nat.mul_lt_mul_right hpos
  rw [hlt, hgt]
  push_cast
  generalize (2 : ℝ) ^ g = unit at *
  rcases hw with ⟨rfl, rfl⟩ | ⟨rfl, hlow, hhigh⟩
  · have hL : 2 * (2 * (a : ℝ) * unit) < 4 * b * unit ↔ a < b := by
      rw [show 2 * (2 * (a : ℝ) * unit) = 4 * a * unit by ring, mul_lt_mul_iff_left₀ hposR,
        mul_lt_mul_iff_right₀ four_pos, Nat.cast_lt]
    have hG : 4 * b * unit < 2 * (2 * (a : ℝ) * unit) ↔ b < a := by
      rw [show 2 * (2 * (a : ℝ) * unit) = 4 * a * unit by ring, mul_lt_mul_iff_left₀ hposR,
        mul_lt_mul_iff_right₀ four_pos, Nat.cast_lt]
    rw [hL, hG]
    omega
  · rcases Nat.lt_or_ge a b with hab | hab
    · have hstep : ((a : ℝ) + 1) * unit ≤ b * unit :=
        mul_le_mul_of_nonneg_right (by exact_mod_cast hab) hposR.le
      exact ⟨iff_of_true (by omega) (by linarith), iff_of_false (by omega) (by linarith)⟩
    · have hstep : (b : ℝ) * unit ≤ a * unit :=
        mul_le_mul_of_nonneg_right (by exact_mod_cast hab) hposR.le
      exact ⟨iff_of_false (by omega) (by linarith), iff_of_true (by omega) (by linarith)⟩

/-- Division of finite operands by one that is not zero, its zero quotients included. -/
theorem Fp.div_of_finite {a b : NUM} (ha : Fp.finite a = true) (hb : Fp.finite b = true)
    (hz : Fp.isZero b = false) :
    Fp.div a b = Fp.round (Fp.sign a != Fp.sign b)
      (2 * (Fp.units a * 2 ^ 1076 / Fp.units b) +
        if Fp.units a * 2 ^ 1076 % Fp.units b = 0 then 0 else 1) 3 := by
  simp [Fp.div, Fp.isNaN_of_finite ha, Fp.isNaN_of_finite hb, Fp.isInf_of_finite ha,
    Fp.isInf_of_finite hb, hz]

/-- The integer quotient with its sticky bit is within one step of eight times the exact quotient. -/
theorem Fp.quotient_sticky (n : Nat) {u : Nat} (hu : 0 < u) {sticky : Nat}
    (hs : sticky = if n % u = 0 then 0 else 1) :
    (sticky = 0 ∧ 2 * ((n : ℝ) / u) = 2 * (n / u : ℕ) * 2 ^ 0) ∨
      (sticky = 1 ∧ 2 * (n / u : ℕ) * 2 ^ 0 < 2 * ((n : ℝ) / u) ∧
        2 * ((n : ℝ) / u) < (2 * (n / u : ℕ) + 2) * 2 ^ 0) := by
  have hposR : (0 : ℝ) < u := by exact_mod_cast hu
  have hsplit : (n : ℝ) = u * (n / u : ℕ) + (n % u : ℕ) := by exact_mod_cast (Nat.div_add_mod n u).symm
  rw [pow_zero, mul_one, mul_one]
  by_cases hrest : n % u = 0
  · refine .inl ⟨by rw [hs, if_pos hrest], ?_⟩
    rw [hrest, Nat.cast_zero, add_zero] at hsplit
    rw [hsplit, mul_div_cancel_left₀ _ hposR.ne']
  · refine .inr ⟨by rw [hs, if_neg hrest], ?_, ?_⟩
    · have : (0 : ℝ) < (n % u : ℕ) := by exact_mod_cast Nat.pos_of_ne_zero hrest
      have : ((n / u : ℕ) : ℝ) < n / u := by rw [lt_div_iff₀ hposR]; linarith
      linarith
    · have : ((n % u : ℕ) : ℝ) < u := by exact_mod_cast Nat.mod_lt n hu
      have : (n : ℝ) / u < (n / u : ℕ) + 1 := by rw [div_lt_iff₀ hposR]; linarith
      linarith

theorem Fp.sign_of_real_div {a b : NUM} :
    (Fp.real a / Fp.real b < 0 → (Fp.sign a != Fp.sign b) = true) ∧
    (0 < Fp.real a / Fp.real b → (Fp.sign a != Fp.sign b) = false) := by
  refine ⟨fun h => Fp.sign_of_real_mul.1 ?_, fun h => Fp.sign_of_real_mul.2 ?_⟩
  · rcases div_neg_iff.mp h with ⟨ha, hb⟩ | ⟨ha, hb⟩
    · exact mul_neg_of_pos_of_neg ha hb
    · exact mul_neg_of_neg_of_pos ha hb
  · rcases div_pos_iff.mp h with ⟨ha, hb⟩ | ⟨ha, hb⟩
    · exact mul_pos ha hb
    · exact mul_pos_of_neg_of_neg ha hb

theorem Fp.rounds_div {a b : NUM} (ha : Fp.finite a = true) (hb : Fp.finite b = true)
    (hz : Fp.isZero b = false) : Fp.Rounds (Fp.real a / Fp.real b) (Fp.div a b) := by
  have hu : 0 < Fp.units b := by
    rw [Nat.pos_iff_ne_zero, ne_eq, Fp.units_eq_zero_iff, hz]
    exact Bool.false_ne_true
  rw [Fp.div_of_finite ha hb hz]
  refine Fp.rounds_round (w := (Fp.units a : ℝ) * 2 ^ 1074 / Fp.units b) ?_ ?_ Fp.sign_of_real_div.1
    Fp.sign_of_real_div.2
  · refine Fp.sameSides_sticky (g := 0) (Nat.mul_one _).symm (Nat.le_trans (by omega) (Fp.le_dropped _ _)) ?_
    have hw : (Fp.units a : ℝ) * 2 ^ 1074 / Fp.units b * 2 ^ 3 =
        2 * ((Fp.units a * 2 ^ 1076 : ℕ) / Fp.units b) := by
      rw [Nat.cast_mul, Nat.cast_pow, Nat.cast_ofNat, pow_add 2 1074 2]
      ring
    rw [hw]
    exact Fp.quotient_sticky _ hu rfl
  · have hbR : |Fp.real b| ≠ 0 := by
      rw [abs_ne_zero, ne_eq, Fp.real_eq_zero_iff, hz]
      exact Bool.false_ne_true
    rw [abs_div, ← Fp.abs_real_mul_pow, ← Fp.abs_real_mul_pow]
    have hpos : (2 : ℝ) ^ 1074 ≠ 0 := by positivity
    generalize (2 : ℝ) ^ 1074 = unit at *
    field_simp

/-! ### The square root -/

/-- The bits below `bits` complete a root from below to the integer root. -/
theorem Fp.isqrt_spec (bits n acc : Nat) (hlow : acc * acc ≤ n)
    (hhigh : n < (acc + 2 ^ bits) * (acc + 2 ^ bits)) :
    Fp.isqrt bits n acc * Fp.isqrt bits n acc ≤ n ∧
      n < (Fp.isqrt bits n acc + 1) * (Fp.isqrt bits n acc + 1) := by
  induction bits generalizing acc with
  | zero => exact ⟨hlow, hhigh⟩
  | succ bits ih =>
    unfold Fp.isqrt
    split
    · next hfits =>
      refine ih _ hfits ?_
      rwa [Nat.add_assoc, ← Nat.two_mul, ← Nat.pow_succ']
    · next hover => exact ih _ hlow (Nat.lt_of_not_le hover)

/-- The integer under the root: the significand with at least 110 bits below it. -/
theorem Fp.sqrt_radicand_bounds {x : NUM} (hz : Fp.isZero x = false) {b : Nat} (hb : 110 ≤ b)
    (hb' : b ≤ 111) :
    2 ^ 110 ≤ Fp.significand x * 2 ^ b ∧ Fp.significand x * 2 ^ b < 2 ^ 83 * 2 ^ 83 := by
  have hlow : 1 ≤ Fp.significand x := by
    rw [Nat.one_le_iff_ne_zero]
    intro h0
    have : Fp.units x = 0 := by rw [Fp.units, h0, Nat.zero_mul]
    rw [Fp.units_eq_zero_iff, hz] at this
    exact Bool.false_ne_true this
  have hhigh : Fp.significand x < 2 ^ 53 := by
    have := Fp.frac_lt x
    unfold Fp.significand
    split <;> omega
  constructor
  · calc 2 ^ 110 ≤ 2 ^ b := Nat.pow_le_pow_right (by omega) hb
      _ ≤ Fp.significand x * 2 ^ b := Nat.le_mul_of_pos_left _ hlow
  · calc Fp.significand x * 2 ^ b ≤ Fp.significand x * 2 ^ 111 :=
          Nat.mul_le_mul_left _ (Nat.pow_le_pow_right (by omega) hb')
      _ < 2 ^ 83 * 2 ^ 83 := by omega

/-- A power of two with an even exponent comes out of the root. -/
theorem Fp.sqrt_radicand_eq {x : NUM} {b g : Nat} (hj : Fp.scale x + 1078 = b + 2 * g) :
    √((Fp.units x : ℝ) * 2 ^ 1074) * 2 ^ 3 = 2 * √((Fp.significand x * 2 ^ b : ℕ) : ℝ) * 2 ^ g := by
  have hsq : (Fp.units x : ℝ) * 2 ^ 1074 * (2 ^ 2) ^ 2 = (Fp.significand x * 2 ^ b : ℕ) * (2 ^ g) ^ 2 := by
    have hnat : Fp.units x * 2 ^ 1074 * (2 ^ 2) ^ 2 = Fp.significand x * 2 ^ b * (2 ^ g) ^ 2 := by
      calc Fp.units x * 2 ^ 1074 * (2 ^ 2) ^ 2
          = Fp.significand x * 2 ^ (Fp.scale x + 1078) := by
            rw [Fp.units, ← pow_mul, mul_assoc, mul_assoc, ← pow_add, ← pow_add]
        _ = Fp.significand x * 2 ^ b * (2 ^ g) ^ 2 := by
            rw [hj, pow_add, ← pow_mul, Nat.mul_comm 2 g, mul_assoc]
    have hcast := congrArg (Nat.cast : ℕ → ℝ) hnat
    rwa [Nat.cast_mul, Nat.cast_mul, Nat.cast_mul (_ * _), Nat.cast_pow, Nat.cast_pow, Nat.cast_pow,
      Nat.cast_pow, Nat.cast_pow, Nat.cast_ofNat] at hcast
  have hroot := congrArg Real.sqrt hsq
  rw [Real.sqrt_mul' _ (sq_nonneg _), Real.sqrt_mul' _ (sq_nonneg _), Real.sqrt_sq (by positivity),
    Real.sqrt_sq (by positivity)] at hroot
  calc √((Fp.units x : ℝ) * 2 ^ 1074) * 2 ^ 3 = 2 * (√((Fp.units x : ℝ) * 2 ^ 1074) * 2 ^ 2) := by
        generalize √((Fp.units x : ℝ) * 2 ^ 1074) = root
        ring
    _ = 2 * √((Fp.significand x * 2 ^ b : ℕ) : ℝ) * 2 ^ g := by rw [hroot, mul_assoc]

/-- The integer root with its sticky bit is within one step of the exact root. -/
theorem Fp.root_sticky {n r sticky : Nat} (hlow : r * r ≤ n) (hhigh : n < (r + 1) * (r + 1))
    (hs : sticky = if r * r = n then 0 else 1) (g : Nat) :
    (sticky = 0 ∧ 2 * √(n : ℝ) * 2 ^ g = 2 * r * 2 ^ g) ∨
      (sticky = 1 ∧ 2 * (r : ℝ) * 2 ^ g < 2 * √(n : ℝ) * 2 ^ g ∧
        2 * √(n : ℝ) * 2 ^ g < (2 * r + 2) * 2 ^ g) := by
  have hpos : (0 : ℝ) < 2 ^ g := by positivity
  by_cases hexact : r * r = n
  · refine .inl ⟨by rw [hs, if_pos hexact], ?_⟩
    rw [← hexact, Nat.cast_mul, Real.sqrt_mul_self (Nat.cast_nonneg r)]
  · refine .inr ⟨by rw [hs, if_neg hexact], ?_, ?_⟩
    · have : (r : ℝ) < √(n : ℝ) := by
        apply Real.lt_sqrt_of_sq_lt
        rw [sq]
        exact_mod_cast Nat.lt_of_le_of_ne hlow hexact
      exact mul_lt_mul_of_pos_right (by linarith) hpos
    · have : √(n : ℝ) < r + 1 := by
        rw [Real.sqrt_lt' (by positivity), sq]
        exact_mod_cast hhigh
      exact mul_lt_mul_of_pos_right (by linarith) hpos

/-- The square root of a finite value that is not negative is its exact root rounded. -/
theorem Fp.rounds_sqrt {x : NUM} (hx : Fp.finite x = true) (hpos : 0 ≤ Fp.real x) :
    Fp.Rounds (√(Fp.real x)) (Fp.sqrt x) := by
  cases hz : Fp.isZero x with
  | true =>
    have hsqrt : Fp.sqrt x = x := by simp [Fp.sqrt, Fp.isNaN_of_finite hx, hz]
    have hx0 : x = Fp.zero (Fp.sign x) :=
      Fp.ext (by simp) (by rw [Fp.magnitude_zero, (Fp.isZero_iff_magnitude x).mp hz])
    rw [hsqrt, Fp.real_of_isZero hz, Real.sqrt_zero, hx0]
    exact Fp.rounds_zero _
  | false =>
    have hsign : Fp.sign x = false := by
      by_contra hs
      have hle := Fp.real_nonpos_of_sign (by simpa using hs : Fp.sign x = true)
      rw [(Fp.real_eq_zero_iff x).mp (le_antisymm hle hpos)] at hz
      exact Bool.false_ne_true hz.symm
    set b := 110 + (Fp.scale x + 1078) % 2 with hb
    set g := (Fp.scale x + 1078 - b) / 2 with hg
    have hj : Fp.scale x + 1078 = b + 2 * g := by omega
    set n := Fp.significand x * 2 ^ b with hn
    obtain ⟨hnLow, hnHigh⟩ := Fp.sqrt_radicand_bounds hz (b := b) (by omega) (by omega)
    obtain ⟨hrLow, hrHigh⟩ := Fp.isqrt_spec 83 n 0 (Nat.zero_le _) (by rwa [Nat.zero_add])
    set r := Fp.isqrt 83 n 0 with hr
    have heq : Fp.sqrt x = Fp.round false ((2 * r + if r * r = n then 0 else 1) * 2 ^ g) 3 := by
      simp only [Fp.sqrt, Fp.isNaN_of_finite hx, hz, hsign, Fp.isInf_of_finite hx, Bool.false_eq_true,
        if_false]
      rfl
    have hrBig : 2 ^ 55 ≤ r := by
      by_contra hsmall
      have : (r + 1) * (r + 1) ≤ 2 ^ 55 * 2 ^ 55 := Nat.mul_le_mul (by omega) (by omega)
      omega
    rw [heq]
    refine Fp.rounds_round (w := √((Fp.units x : ℝ) * 2 ^ 1074)) ?_ ?_
      (fun h => absurd h (not_lt.mpr (Real.sqrt_nonneg _))) (fun _ => rfl)
    · refine Fp.sameSides_sticky rfl ?_ ?_
      · have hbig : 2 ^ (54 + g) ≤ (2 * r + if r * r = n then 0 else 1) * 2 ^ g := by
          rw [pow_add]
          exact Nat.mul_le_mul_right _ (by omega)
        have hlog := (Nat.le_log2 (by have := Nat.two_pow_pos (54 + g); omega)).mpr hbig
        refine Nat.le_trans ?_ (Nat.le_max_left _ _)
        omega
      · rw [Fp.sqrt_radicand_eq hj]
        exact Fp.root_sticky hrLow hrHigh rfl g
    · have hreal : Fp.real x = Fp.units x / 2 ^ 1074 := by
        rw [Fp.real, Fp.value, hsign]
        rfl
      have hp : (0 : ℝ) < 2 ^ 1074 := by positivity
      rw [abs_of_nonneg (Real.sqrt_nonneg _), hreal]
      generalize (2 : ℝ) ^ 1074 = unit at *
      rw [Real.sqrt_div' _ hp.le, Real.sqrt_mul' _ hp.le, div_mul_eq_mul_div, mul_div_assoc,
        Real.div_sqrt]

end Sys2Proof
end

section
/-! PROOFS of the number system family, fourth part: rounding, division and the square root are correct
(00_scope.md R8, R10); exact cases; opposite operands. -/

namespace Sys2Proof

/-! ### Correct rounding over the integers -/

/-- A distance between real values as a distance of integers: `N / D` units are the exact value. -/
theorem Fp.abs_value_mul_sub (y : NUM) {D N : Int} {v : ℝ} (hv : v * 2 ^ 1074 * D = N) :
    ((|Fp.value y * D - N| : Int) : ℝ) = |Fp.real y - v| * (2 ^ 1074 * |(D : ℝ)|) := by
  have hpos : (0 : ℝ) < 2 ^ 1074 := by positivity
  rw [Int.cast_abs, Int.cast_sub, Int.cast_mul, ← hv, ← Fp.real_mul_pow]
  generalize (2 : ℝ) ^ 1074 = unit at *
  rw [← sub_mul, ← sub_mul, abs_mul, abs_mul, abs_of_pos hpos, mul_assoc]

/-- A finite rounding of `N / D` units is nearest to it among all finite NUMs, and even at a tie. -/
theorem Fp.Rounds.nearest_int {v : ℝ} {r : NUM} (h : Fp.Rounds v r) (hr : Fp.finite r = true)
    {D N : Int} (hD : D ≠ 0) (hv : v * 2 ^ 1074 * D = N) (y : NUM) :
    |Fp.value r * D - N| ≤ |Fp.value y * D - N| ∧
      (|Fp.value r * D - N| = |Fp.value y * D - N| → Fp.value y = Fp.value r ∨ Fp.frac r % 2 = 0) := by
  have hpos : (0 : ℝ) < 2 ^ 1074 * |(D : ℝ)| :=
    mul_pos (by positivity) (abs_pos.mpr (by exact_mod_cast hD))
  constructor
  · rw [← Int.cast_le (R := ℝ), Fp.abs_value_mul_sub r hv, Fp.abs_value_mul_sub y hv]
    exact mul_le_mul_of_nonneg_right (h.nearest hr y) hpos.le
  · intro htie
    have htieR := congrArg (Int.cast : Int → ℝ) htie
    rw [Fp.abs_value_mul_sub r hv, Fp.abs_value_mul_sub y hv] at htieR
    rw [← Fp.real_eq_real_iff]
    exact h.even_of_tie hr (mul_right_cancel₀ hpos.ne' htieR)

/-- `Fp.round` on a sign and `n` is the rounding of `±n / 2^k` units. -/
theorem Fp.rounds_signed (neg : Bool) (n k : Nat) :
    Fp.Rounds (((if neg then -(n : Int) else n : Int) : ℝ) / 2 ^ k / 2 ^ 1074) (Fp.round neg n k) := by
  have hpos : (0 : ℝ) < 2 ^ 1074 := by positivity
  have hposk : (0 : ℝ) < 2 ^ k := by positivity
  have habs : |((if neg then -(n : Int) else n : Int) : ℝ)| = n := by cases neg <;> simp
  refine Fp.rounds_round (w := (n : ℝ) / 2 ^ k) ?_ ?_ (fun h => ?_) (fun h => ?_)
  · rw [div_mul_cancel₀ _ hposk.ne']
    exact Fp.sameSides_self n k
  · rw [abs_div, abs_div, habs, abs_of_pos hpos, abs_of_pos hposk, div_mul_cancel₀ _ hpos.ne']
  · cases neg with
    | true => rfl
    | false =>
      have : (0 : ℝ) ≤ (n : ℝ) / 2 ^ k / 2 ^ 1074 := div_nonneg (by positivity) hpos.le
      exact absurd h (not_lt.mpr (by simpa using this))
  · cases neg with
    | false => rfl
    | true =>
      have : (0 : ℝ) ≤ (n : ℝ) / 2 ^ k / 2 ^ 1074 := div_nonneg (by positivity) hpos.le
      rw [if_pos rfl, Int.cast_neg, neg_div, neg_div, Int.cast_natCast] at h
      linarith

/-- Settles O50: the answer is the rounding of `±n / 2^k` units, and that is nearest and even at a tie. -/
theorem roundingIsToNearestTiesToEven : Obligations.RoundingIsToNearestTiesToEven := by
  unfold Obligations.RoundingIsToNearestTiesToEven
  intro neg n k y hr _ v r
  have hv : ((v : ℝ) / 2 ^ k / 2 ^ 1074) * 2 ^ 1074 * ((2 ^ k : Int) : ℝ) = v := by
    rw [div_mul_cancel₀ _ (pow_ne_zero _ two_ne_zero), Int.cast_pow, Int.cast_ofNat,
      div_mul_cancel₀ _ (pow_ne_zero _ two_ne_zero)]
  exact (Fp.rounds_signed neg n k).nearest_int hr (pow_ne_zero _ two_ne_zero) hv y

theorem Fp.sign_div {a b : NUM} (ha : Fp.finite a = true) (hb : Fp.finite b = true)
    (hz : Fp.isZero b = false) : Fp.sign (Fp.div a b) = (Fp.sign a != Fp.sign b) := by
  rw [Fp.div_of_finite ha hb hz, Fp.sign_round]

theorem Fp.sign_mul {a b : NUM} (ha : Fp.finite a = true) (hb : Fp.finite b = true) :
    Fp.sign (Fp.mul a b) = (Fp.sign a != Fp.sign b) := by
  rw [Fp.mul_of_finite ha hb, Fp.sign_round]

theorem Fp.value_ne_zero {b : NUM} (hz : Fp.isZero b = false) : Fp.value b ≠ 0 := by
  rw [ne_eq, Fp.value_eq_zero_iff, hz]
  exact Bool.false_ne_true

theorem Fp.real_ne_zero {b : NUM} (hz : Fp.isZero b = false) : Fp.real b ≠ 0 := by
  rw [ne_eq, Fp.real_eq_zero_iff, hz]
  exact Bool.false_ne_true

/-- The quotient of two real values is that of the integers. -/
theorem Fp.real_div_real (a b : NUM) : Fp.real a / Fp.real b = (Fp.value a : ℝ) / Fp.value b :=
  div_div_div_cancel_right₀ (pow_ne_zero _ two_ne_zero) _ _

/-- Settles O52: the quotient is the exact one rounded, so its overflow, sign, nearness and ties are those
of a rounding. -/
theorem divisionIsCorrectlyRounded : Obligations.DivisionIsCorrectlyRounded := by
  unfold Obligations.DivisionIsCorrectlyRounded
  intro a b ha hb hz
  have h := Fp.rounds_div ha hb hz
  have hsign := Fp.sign_div ha hb hz
  have hb0 := Fp.value_ne_zero hz
  have hb0R : (Fp.value b : ℝ) ≠ 0 := by exact_mod_cast hb0
  refine ⟨?_, fun hinf => ?_, hsign, fun hr y _ => ?_⟩
  · rw [h.finite_iff, Fp.real_div_real, abs_div, div_mul_eq_mul_div, div_lt_iff₀ (abs_pos.mpr hb0R),
      ← Int.cast_lt (R := ℝ), Int.cast_mul, Int.cast_mul, Int.cast_mul, Int.cast_abs, Int.cast_abs,
      Int.cast_pow, Int.cast_pow, Int.cast_ofNat]
    norm_num only
  · rw [h.eq_inf hinf, hsign]
  · refine h.nearest_int hr hb0 ?_ y
    rw [Fp.real_div_real, mul_right_comm, div_mul_cancel₀ _ hb0R, Int.cast_mul, Int.cast_pow,
      Int.cast_ofNat]

/-- The root of a finite value is no larger than it or than 1, so it never overflows. -/
theorem Fp.finite_sqrt {x : NUM} (hx : Fp.finite x = true) (hpos : 0 ≤ Fp.real x) :
    Fp.finite (Fp.sqrt x) = true := by
  have h := Fp.rounds_sqrt hx hpos
  have hone : Fp.real Const.one = 1 := by
    rw [Fp.real, show Fp.value Const.one = 2 ^ 1074 by decide +kernel, Int.cast_pow, Int.cast_ofNat]
    exact div_self (pow_ne_zero _ two_ne_zero)
  rcases le_total (Fp.real x) 1 with hle | hge
  · refine h.finite_of_abs_le (y := Const.one) rfl ?_
    rw [hone, abs_one, abs_of_nonneg (Real.sqrt_nonneg _)]
    exact Real.sqrt_le_one.mpr hle
  · refine h.finite_of_abs_le hx ?_
    rw [abs_of_nonneg (Real.sqrt_nonneg _), abs_of_nonneg hpos, Real.sqrt_le_left hpos]
    nlinarith

/-- Settles O53: the root is the exact one rounded; in units both distances grow by the same factor. -/
theorem squareRootIsCorrectlyRounded : Obligations.SquareRootIsCorrectlyRounded := by
  unfold Obligations.SquareRootIsCorrectlyRounded
  intro x y hx hpos _
  have hposR : 0 ≤ Fp.real x := div_nonneg (by exact_mod_cast hpos) (by positivity)
  have hr := Fp.finite_sqrt hx hposR
  refine ⟨hr, ?_⟩
  have hp : (0 : ℝ) < 2 ^ 1074 := by positivity
  have hroot : √((Fp.value x : ℝ) * 2 ^ 1074) = √(Fp.real x) * 2 ^ 1074 := by
    rw [← Fp.real_mul_pow]
    generalize (2 : ℝ) ^ 1074 = unit at *
    rw [mul_assoc, Real.sqrt_mul' _ (mul_self_nonneg _), Real.sqrt_mul_self hp.le]
  rw [hroot, ← Fp.real_mul_pow, ← Fp.real_mul_pow, ← sub_mul, ← sub_mul, abs_mul, abs_mul]
  exact mul_le_mul_of_nonneg_right ((Fp.rounds_sqrt hx hposR).nearest hr y) (abs_nonneg _)

/-! ### Real values of constants -/

/-- A NUM that is an integer. -/
theorem Fp.real_eq_of_value {x : NUM} {q : Int} (h : Fp.value x = q * 2 ^ 1074) : Fp.real x = q := by
  rw [Fp.real, h, Int.cast_mul, Int.cast_pow, Int.cast_ofNat, mul_div_cancel_right₀ _ (pow_ne_zero _ two_ne_zero)]

@[simp] theorem Fp.real_const_zero : Fp.real Const.zero = 0 := Fp.real_of_isZero rfl

@[simp] theorem Fp.real_const_one : Fp.real Const.one = 1 := by
  simpa using Fp.real_eq_of_value (x := Const.one) (q := 1) (by decide +kernel)

@[simp] theorem Fp.real_const_two : Fp.real Const.two = 2 := by
  simpa using Fp.real_eq_of_value (x := Const.two) (q := 2) (by decide +kernel)

@[simp] theorem Fp.real_const_four : Fp.real Const.four = 4 := by
  simpa using Fp.real_eq_of_value (x := Const.four) (q := 4) (by decide +kernel)

@[simp] theorem Fp.real_const_five : Fp.real Const.five = 5 := by
  simpa using Fp.real_eq_of_value (x := Const.five) (q := 5) (by decide +kernel)

@[simp] theorem Fp.real_const_forty : Fp.real Const.forty = 40 := by
  simpa using Fp.real_eq_of_value (x := Const.forty) (q := 40) (by decide +kernel)

@[simp] theorem Fp.real_const_thPmax : Fp.real Const.thPmax = 1500 := by
  simpa using Fp.real_eq_of_value (x := Const.thPmax) (q := 1500) (by decide +kernel)

/-! ### Exact cases -/

theorem Fp.magnitude_eq_of_abs_real {x y : NUM} (h : |Fp.real x| = |Fp.real y|) :
    Fp.magnitude x = Fp.magnitude y := by
  apply Fp.unitsAt_strictMono.injective
  have hcast : (Fp.unitsAt (Fp.magnitude x) : ℝ) = Fp.unitsAt (Fp.magnitude y) := by
    rw [← Fp.abs_real_eq, ← Fp.abs_real_eq, h]
  exact_mod_cast hcast

/-- Equal signs and equal real values leave one NUM; a zero needs its sign. -/
theorem Fp.eq_of_real {x y : NUM} (hs : Fp.sign x = Fp.sign y) (h : Fp.real x = Fp.real y) : x = y :=
  Fp.ext hs (Fp.magnitude_eq_of_abs_real (by rw [h]))

/-- A real value other than 0 needs no sign. -/
theorem Fp.eq_of_real_ne_zero {x y : NUM} (h0 : Fp.real y ≠ 0) (h : Fp.real x = Fp.real y) : x = y := by
  refine Fp.eq_of_real ?_ h
  have hx0 : Fp.real x ≠ 0 := h ▸ h0
  cases hsx : Fp.sign x <;> cases hsy : Fp.sign y
  · rfl
  · exact absurd (le_antisymm (Fp.real_nonpos_of_sign hsy) (h ▸ Fp.real_nonneg_of_sign hsx)) h0
  · exact absurd (le_antisymm (Fp.real_nonpos_of_sign hsx) (h ▸ Fp.real_nonneg_of_sign hsy)) hx0
  · rfl

/-- A value that is no NaN is finite or the infinity of its sign. -/
theorem Fp.finite_or_eq_inf {x : NUM} (h : Fp.isNaN x = false) :
    Fp.finite x = true ∨ x = Fp.inf (Fp.sign x) := by
  rw [Fp.isNaN_eq_false_iff] at h
  rw [Fp.finite_iff]
  rcases Nat.lt_or_eq_of_le h with hlt | heq
  · exact .inl hlt
  · exact .inr (Fp.ext (by simp) (by rw [heq, Fp.magnitude_inf]))

@[simp] theorem Fp.isNaN_inf (neg : Bool) : Fp.isNaN (Fp.inf neg) = false := by cases neg <;> rfl

@[simp] theorem Fp.isInf_inf (neg : Bool) : Fp.isInf (Fp.inf neg) = true := by cases neg <;> rfl

theorem Fp.mul_const_one {x : NUM} (h : Fp.isNaN x = false) : Fp.mul x Const.one = x := by
  rcases Fp.finite_or_eq_inf h with hx | hx
  · apply Fp.eq_of_real
    · rw [Fp.sign_mul hx rfl, show Fp.sign Const.one = false from rfl, Bool.bne_false]
    · exact (Fp.rounds_mul hx rfl).real_eq hx (by simp)
  · rw [hx]
    cases Fp.sign x <;> rfl

theorem Fp.const_one_mul {x : NUM} (h : Fp.isNaN x = false) : Fp.mul Const.one x = x := by
  rcases Fp.finite_or_eq_inf h with hx | hx
  · apply Fp.eq_of_real
    · rw [Fp.sign_mul rfl hx, show Fp.sign Const.one = false from rfl, Bool.false_bne]
    · exact (Fp.rounds_mul rfl hx).real_eq hx (by simp)
  · rw [hx]
    cases Fp.sign x <;> rfl

theorem Fp.div_const_one {x : NUM} (h : Fp.isNaN x = false) : Fp.div x Const.one = x := by
  rcases Fp.finite_or_eq_inf h with hx | hx
  · apply Fp.eq_of_real
    · rw [Fp.sign_div hx rfl rfl, show Fp.sign Const.one = false from rfl, Bool.bne_false]
    · exact (Fp.rounds_div hx rfl rfl).real_eq hx (by simp)
  · rw [hx]
    cases Fp.sign x <;> rfl

theorem Fp.div_eq_one {x : NUM} (hx : Fp.finite x = true) (hz : Fp.isZero x = false) :
    Fp.div x x = Const.one := by
  apply Fp.eq_of_real_ne_zero (by simp)
  exact (Fp.rounds_div hx hx hz).real_eq rfl (by rw [div_self (Fp.real_ne_zero hz), Fp.real_const_one])

/-- A zero of either sign adds nothing to another number. -/
theorem Fp.add_zero_right {x z : NUM} (hx : Fp.finite x = true) (h0 : Fp.isZero x = false)
    (hz : Fp.isZero z = true) : Fp.add x z = x :=
  Fp.eq_of_real_ne_zero (Fp.real_ne_zero h0)
    ((Fp.rounds_add hx (Fp.finite_of_isZero hz)).real_eq hx (by simp [Fp.real_of_isZero hz]))

theorem Fp.sub_zero_right {x z : NUM} (hx : Fp.finite x = true) (h0 : Fp.isZero x = false)
    (hz : Fp.isZero z = true) : Fp.sub x z = x :=
  Fp.eq_of_real_ne_zero (Fp.real_ne_zero h0)
    ((Fp.rounds_sub hx (Fp.finite_of_isZero hz)).real_eq hx (by simp [Fp.real_of_isZero hz]))

/-- `+0` plus a number that is no zero. -/
theorem Fp.const_zero_add {x : NUM} (h : Fp.isNaN x = false) (h0 : Fp.isZero x = false) :
    Fp.add Const.zero x = x := by
  rcases Fp.finite_or_eq_inf h with hx | hx
  · exact Fp.eq_of_real_ne_zero (Fp.real_ne_zero h0) ((Fp.rounds_add rfl hx).real_eq hx (by simp))
  · rw [hx]
    cases Fp.sign x <;> rfl

/-- `+0` minus a number that is no zero. -/
theorem Fp.const_zero_sub {x : NUM} (h : Fp.isNaN x = false) (h0 : Fp.isZero x = false) :
    Fp.sub Const.zero x = Fp.neg x := by
  rcases Fp.finite_or_eq_inf h with hx | hx
  · have hx' : Fp.finite (Fp.neg x) = true := (Fp.finite_neg x).trans hx
    refine Fp.eq_of_real_ne_zero ?_ ((Fp.rounds_sub rfl hx).real_eq hx' (by simp))
    rw [Fp.real_neg]
    exact neg_ne_zero.mpr (Fp.real_ne_zero h0)
  · rw [hx]
    cases Fp.sign x <;> rfl

/-- A finite sum has finite operands. -/
theorem Fp.finite_of_add {a b : NUM} (h : Fp.finite (Fp.add a b) = true) :
    Fp.finite a = true ∧ Fp.finite b = true := by
  have hNaN : ¬ (Fp.isNaN a = true ∨ Fp.isNaN b = true) := by
    intro hNaN
    rw [Fp.add_of_nan hNaN, Fp.finite_nan] at h
    exact Bool.false_ne_true h
  have haNaN : Fp.isNaN a = false := by simpa using fun ha => hNaN (.inl ha)
  have hbNaN : Fp.isNaN b = false := by simpa using fun hb => hNaN (.inr hb)
  simp only [Fp.add, haNaN, hbNaN, Bool.or_self, Bool.false_eq_true, if_false] at h
  have hinf : ∀ neg, Fp.finite (Fp.inf neg) = false := fun neg => by cases neg <;> rfl
  rcases Fp.finite_or_eq_inf haNaN with ha | ha
  · rcases Fp.finite_or_eq_inf hbNaN with hb | hb
    · exact ⟨ha, hb⟩
    · rw [hb] at h
      simp [Fp.addCore, Fp.isInf_of_finite ha, hinf] at h
  · rw [ha] at h
    simp only [Fp.addCore, Fp.isInf_inf, if_true] at h
    split at h <;> simp [hinf] at h

theorem Fp.isZero_mul_left {a b : NUM} (ha : Fp.isZero a = true) (hb : Fp.finite b = true) :
    Fp.isZero (Fp.mul a b) = true := by
  have h := Fp.rounds_mul (Fp.finite_of_isZero ha) hb
  rw [Fp.real_of_isZero ha, zero_mul] at h
  exact h.isZero_of_zero

/-! ### Opposite operands -/

@[simp] theorem Fp.neg_neg (x : NUM) : Fp.neg (Fp.neg x) = x := Fp.ext (by simp) (by simp)

theorem Fp.round_not (neg : Bool) (n k : Nat) : Fp.round (!neg) n k = Fp.neg (Fp.round neg n k) :=
  Fp.ext (by simp) (by simp [Fp.magnitude_round])

theorem Fp.inf_not (neg : Bool) : Fp.inf (!neg) = Fp.neg (Fp.inf neg) := by cases neg <;> rfl

theorem Fp.zero_not (neg : Bool) : Fp.zero (!neg) = Fp.neg (Fp.zero neg) := by cases neg <;> rfl

@[simp] theorem Fp.units_neg (x : NUM) : Fp.units (Fp.neg x) = Fp.units x := by
  simp [Fp.units_eq_unitsAt]

/-- The opposite factor gives the opposite product, wherever the product is no NaN. -/
theorem Fp.mul_neg_right {a b : NUM} (h : Fp.isNaN (Fp.mul a b) = false) :
    Fp.mul a (Fp.neg b) = Fp.neg (Fp.mul a b) := by
  have hbne : (Fp.sign a != !Fp.sign b) = !(Fp.sign a != Fp.sign b) := by
    cases Fp.sign a <;> cases Fp.sign b <;> rfl
  simp only [Fp.mul, Fp.isNaN_neg, Fp.isInf_neg, Fp.isZero_neg, Fp.sign_neg, Fp.units_neg, hbne] at h ⊢
  split_ifs at h ⊢
  · simp at h
  · simp at h
  · exact Fp.inf_not _
  · simp at h
  · exact Fp.inf_not _
  · exact Fp.round_not _ _ _

theorem Fp.mul_neg_left {a b : NUM} (h : Fp.isNaN (Fp.mul a b) = false) :
    Fp.mul (Fp.neg a) b = Fp.neg (Fp.mul a b) := by
  have hbne : ((!Fp.sign a) != Fp.sign b) = !(Fp.sign a != Fp.sign b) := by
    cases Fp.sign a <;> cases Fp.sign b <;> rfl
  simp only [Fp.mul, Fp.isNaN_neg, Fp.isInf_neg, Fp.isZero_neg, Fp.sign_neg, Fp.units_neg, hbne] at h ⊢
  split_ifs at h ⊢
  · simp at h
  · simp at h
  · exact Fp.inf_not _
  · simp at h
  · exact Fp.inf_not _
  · exact Fp.round_not _ _ _

/-- The opposite dividend gives the opposite quotient, wherever the quotient is no NaN. -/
theorem Fp.div_neg_left {a b : NUM} (h : Fp.isNaN (Fp.div a b) = false) :
    Fp.div (Fp.neg a) b = Fp.neg (Fp.div a b) := by
  have hbne : ((!Fp.sign a) != Fp.sign b) = !(Fp.sign a != Fp.sign b) := by
    cases Fp.sign a <;> cases Fp.sign b <;> rfl
  simp only [Fp.div, Fp.isNaN_neg, Fp.isInf_neg, Fp.isZero_neg, Fp.sign_neg, Fp.units_neg, hbne] at h ⊢
  split_ifs at h ⊢
  · simp at h
  · simp at h
  · exact Fp.inf_not _
  · exact Fp.zero_not _
  · simp at h
  · exact Fp.inf_not _
  all_goals exact Fp.round_not _ _ _

/-- A finite factor that is no zero makes no NaN of a number. -/
theorem Fp.isNaN_mul_of_finite {a b : NUM} (ha : Fp.finite a = true) (h0 : Fp.isZero a = false)
    (hb : Fp.isNaN b = false) : Fp.isNaN (Fp.mul a b) = false := by
  rcases Fp.finite_or_eq_inf hb with hb | hb
  · exact (Fp.rounds_mul ha hb).isNaN
  · rw [hb]
    simp [Fp.mul, Fp.isNaN_of_finite ha, Fp.isInf_of_finite ha, h0]

/-! ### Whole numbers (00_scope.md R12) -/

theorem Fp.rounds_ofNat (k : Nat) : Fp.Rounds k (Fp.ofNat k) := by
  refine Fp.rounds_round (w := (k * 2 ^ 1074 : ℕ)) ?_ ?_
    (fun h => absurd h (not_lt.mpr (Nat.cast_nonneg k))) (fun _ => rfl)
  · rw [pow_zero, mul_one]
    exact Fp.sameSides_self _ 0
  · rw [Nat.abs_cast, Nat.cast_mul, Nat.cast_pow, Nat.cast_ofNat]

/-- Fewer than 2^53 times a power of two are the units of one magnitude. -/
theorem Fp.exists_unitsAt (e : Nat) : ∀ {t : Nat}, t < 2 ^ 53 → ∃ m, Fp.unitsAt m = t * 2 ^ e := by
  induction e with
  | zero => exact fun {t} ht => ⟨0 * 2 ^ 52 + t, Fp.unitsAt_scaled ht.le (by omega)⟩
  | succ e ih =>
    intro t ht
    rcases Nat.lt_or_ge t (2 ^ 52) with hsmall | hlarge
    · obtain ⟨m, hm⟩ := ih (t := 2 * t) (by omega)
      exact ⟨m, by rw [hm, pow_succ', Nat.mul_left_comm, Nat.mul_assoc]⟩
    · exact ⟨_, Fp.unitsAt_scaled ht.le (fun _ => hlarge)⟩

theorem Fp.scaled_lt {t e top : Nat} (ht : t < 2 ^ 53) (he : e < top) : t * 2 ^ e < 2 ^ 52 * 2 ^ top :=
  calc t * 2 ^ e < 2 ^ 53 * 2 ^ e := Nat.mul_lt_mul_of_pos_right ht (Nat.two_pow_pos e)
    _ = 2 ^ 52 * 2 ^ (e + 1) := by ring
    _ ≤ 2 ^ 52 * 2 ^ top := Nat.mul_le_mul_left _ (Nat.pow_le_pow_right Nat.zero_lt_two he)

/-- Where the power of two is in the range of the format, they are those of a finite NUM. -/
theorem Fp.exists_real {t e : Nat} (ht : t < 2 ^ 53) (he : e ≤ 2045) :
    ∃ y, Fp.finite y = true ∧ Fp.sign y = false ∧ Fp.real y * 2 ^ 1074 = t * 2 ^ e := by
  obtain ⟨m, hm⟩ := Fp.exists_unitsAt e ht
  have hinf : m < Fp.infMagnitude := by
    rw [← Fp.unitsAt_strictMono.lt_iff_lt, hm, Fp.unitsAt_infMagnitude]
    exact Fp.scaled_lt ht (Nat.lt_succ_of_le he)
  have hbound : m < 2 ^ 63 := by
    unfold Fp.infMagnitude at hinf
    omega
  have hsign := Fp.sign_pack false hbound
  have hmag := Fp.magnitude_pack false hbound
  refine ⟨Fp.pack false m, (Fp.finite_iff _).mpr (by rw [hmag]; exact hinf), hsign, ?_⟩
  rw [← abs_of_nonneg (Fp.real_nonneg_of_sign hsign), Fp.abs_real_eq, hmag, hm, Nat.cast_mul, Nat.cast_pow,
    Nat.cast_ofNat]

/-- `Num(k)` is exact below 2^53. -/
theorem Fp.ofNat_exact {k : Nat} (hk : k < 2 ^ 53) :
    Fp.finite (Fp.ofNat k) = true ∧ Fp.real (Fp.ofNat k) = k := by
  obtain ⟨y, hy, -, hyReal⟩ := Fp.exists_real hk (by omega : 1074 ≤ 2045)
  have hyk : (k : ℝ) = Fp.real y := (mul_right_cancel₀ (pow_ne_zero _ two_ne_zero) hyReal).symm
  have h := Fp.rounds_ofNat k
  exact ⟨h.finite_of_abs_le hy (by rw [hyk]), (h.real_eq hy hyk).trans hyk.symm⟩

/-- A rounding is no larger in size than a finite NUM which its exact value does not exceed. -/
theorem Fp.Rounds.abs_real_le {v : ℝ} {r y : NUM} (h : Fp.Rounds v r) (hy : Fp.finite y = true)
    (hle : |v| ≤ |Fp.real y|) : Fp.finite r = true ∧ |Fp.real r| ≤ |Fp.real y| := by
  refine ⟨h.finite_of_abs_le hy hle, ?_⟩
  have hpos : (0 : ℝ) < 2 ^ 1074 := by positivity
  rw [← mul_le_mul_iff_left₀ hpos, Fp.abs_real_eq, Fp.abs_real_eq, Nat.cast_le]
  exact Fp.unitsAt_strictMono.monotone (h.le_magnitude hle)

/-- A rounding stays between whole numbers. -/
theorem Fp.Rounds.bounds {v : ℝ} {r : NUM} (h : Fp.Rounds v r) {l u : Nat} (hl : (l : ℝ) ≤ v) (hu : v ≤ u)
    (hu' : u < 2 ^ 53) : Fp.finite r = true ∧ (l : ℝ) ≤ Fp.real r ∧ Fp.real r ≤ u := by
  have hlu : l ≤ u := by exact_mod_cast hl.trans hu
  obtain ⟨hlf, hlr⟩ := Fp.ofNat_exact (hlu.trans_lt hu')
  obtain ⟨huf, hur⟩ := Fp.ofNat_exact hu'
  have hv : 0 ≤ v := (Nat.cast_nonneg l).trans hl
  refine ⟨h.finite_of_abs_le huf ?_, ?_, ?_⟩
  · rwa [hur, abs_of_nonneg hv, Nat.abs_cast]
  · rw [← hlr, Fp.real_le_iff_ord_le]
    exact h.le_ord hlf (by rwa [hlr])
  · rw [← hur, Fp.real_le_iff_ord_le]
    exact h.ord_le huf (by rwa [hur])

end Sys2Proof
end

section
/-! PROOFS of the designer at zero gain (40_designer.md R113), the shaper's oddness (42_shaper.md R133) and
chug at amount 0 (44_chug.md R163). -/

namespace Sys2Proof

namespace Machine

/-! ### Coefficients at `A = 1` (R113) -/

/-- Numerator terms equal to the denominator's give `b0 = 1`, `b1 = a1` and `b2 = a2`. -/
theorem normalise_matching {t : DesignTerms} (hfin : Fp.finite t.a0 = true) (hz : Fp.isZero t.a0 = false)
    (h0 : t.b0 = t.a0) (h1 : t.b1 = t.a1) (h2 : t.b2 = t.a2) :
    (normalise t).b0 = Const.one ∧ (normalise t).b1 = (normalise t).a1 ∧
      (normalise t).b2 = (normalise t).a2 := by
  refine ⟨?_, ?_, ?_⟩
  · rw [normalise, h0]
    exact Fp.div_eq_one hfin hz
  · rw [normalise, h1]
  · rw [normalise, h2]

/-- Settles O23: at `A = 1` the numerator's `alpha * A` and the denominator's `alpha / A` are both `alpha`. -/
theorem peakingAtZeroGainHasMatchingCoefficients : Obligations.PeakingAtZeroGainHasMatchingCoefficients := by
  unfold Obligations.PeakingAtZeroGainHasMatchingCoefficients
  intro cw alpha hfin hz
  have hNaN : Fp.isNaN alpha = false := by
    by_contra hNaN
    have hterm : Fp.isNaN (peakingTerms Const.one cw alpha).a0 = true :=
      Fp.isNaN_add (.inr (Fp.isNaN_div (.inl (by simpa using hNaN))))
    rw [Fp.isNaN_of_finite hfin] at hterm
    exact Bool.false_ne_true hterm
  have hsame : Fp.mul alpha Const.one = Fp.div alpha Const.one := by
    rw [Fp.mul_const_one hNaN, Fp.div_const_one hNaN]
  refine normalise_matching hfin hz ?_ rfl ?_ <;> simp only [peakingTerms, hsame]

/-- The shelves' `A + 1` and `A - 1` at `A = 1`. -/
theorem add_one_one : Fp.add Const.one Const.one = Const.two := by decide +kernel

theorem sub_one_one : Fp.sub Const.one Const.one = Const.zero := by decide +kernel

/-- The middle terms of both shelves: `(A - 1) - (A + 1) cw` times 2 is `(A - 1) + (A + 1) cw` times -2,
when `(A + 1) cw` is no zero. -/
theorem shelf_middle {y : NUM} (hNaN : Fp.isNaN y = false) (h0 : Fp.isZero y = false) :
    Fp.mul Const.two (Fp.sub Const.zero y) = Fp.mul Const.minusTwo (Fp.add Const.zero y) := by
  have hprod : Fp.isNaN (Fp.mul Const.two y) = false := Fp.isNaN_mul_of_finite rfl rfl hNaN
  rw [Fp.const_zero_sub hNaN h0, Fp.const_zero_add hNaN h0, Fp.mul_neg_right hprod]
  exact (Fp.mul_neg_left hprod).symm

/-- Twice a finite number that is no zero is no zero and no NaN. -/
theorem two_mul_ne_zero {cw : NUM} (hcw : Fp.finite cw = true) (h0 : Fp.isZero cw = false) :
    Fp.isNaN (Fp.mul Const.two cw) = false ∧ Fp.isZero (Fp.mul Const.two cw) = false := by
  have h := Fp.rounds_mul (a := Const.two) rfl hcw
  refine ⟨h.isNaN, ?_⟩
  have hle : Fp.magnitude cw ≤ Fp.magnitude (Fp.mul Const.two cw) := by
    apply h.magnitude_le hcw
    rw [Fp.real_const_two, abs_mul, abs_two]
    linarith [abs_nonneg (Fp.real cw)]
  rw [← Bool.not_eq_true, Fp.isZero_iff_magnitude] at h0 ⊢
  omega

/-- `2 * sqrt 1 * alpha`, the shelves' last term at `A = 1`. -/
def shelfTail (alpha : NUM) : NUM := Fp.mul (Fp.mul Const.two (Fp.sqrt Const.one)) alpha

/-- The low shelf's terms at `A = 1`. -/
theorem lowshelfTerms_one {cw : NUM} (alpha : NUM) (hcw : Fp.finite cw = true) :
    lowshelfTerms Const.one cw alpha =
      { b0 := Fp.mul Const.one (Fp.add Const.two (shelfTail alpha))
        b1 := Fp.mul (Fp.mul Const.two Const.one) (Fp.sub Const.zero (Fp.mul Const.two cw))
        b2 := Fp.mul Const.one (Fp.sub Const.two (shelfTail alpha))
        a0 := Fp.add Const.two (shelfTail alpha)
        a1 := Fp.mul Const.minusTwo (Fp.add Const.zero (Fp.mul Const.two cw))
        a2 := Fp.sub Const.two (shelfTail alpha) } := by
  have hz : Fp.isZero (Fp.mul Const.zero cw) = true := Fp.isZero_mul_left rfl hcw
  simp only [lowshelfTerms, add_one_one, sub_one_one, shelfTail,
    Fp.add_zero_right (x := Const.two) rfl rfl hz, Fp.sub_zero_right (x := Const.two) rfl rfl hz]

/-- The high shelf's terms at `A = 1`. -/
theorem highshelfTerms_one {cw : NUM} (alpha : NUM) (hcw : Fp.finite cw = true) :
    highshelfTerms Const.one cw alpha =
      { b0 := Fp.mul Const.one (Fp.add Const.two (shelfTail alpha))
        b1 := Fp.mul (Fp.mul Const.minusTwo Const.one) (Fp.add Const.zero (Fp.mul Const.two cw))
        b2 := Fp.mul Const.one (Fp.sub Const.two (shelfTail alpha))
        a0 := Fp.add Const.two (shelfTail alpha)
        a1 := Fp.mul Const.two (Fp.sub Const.zero (Fp.mul Const.two cw))
        a2 := Fp.sub Const.two (shelfTail alpha) } := by
  have hz : Fp.isZero (Fp.mul Const.zero cw) = true := Fp.isZero_mul_left rfl hcw
  simp only [highshelfTerms, add_one_one, sub_one_one, shelfTail,
    Fp.add_zero_right (x := Const.two) rfl rfl hz, Fp.sub_zero_right (x := Const.two) rfl rfl hz]

/-- Where the shelves' `A0` is finite, neither outer term is a NaN. -/
theorem shelf_outer {alpha : NUM} (h : Fp.finite (Fp.add Const.two (shelfTail alpha)) = true) :
    Fp.mul Const.one (Fp.add Const.two (shelfTail alpha)) = Fp.add Const.two (shelfTail alpha) ∧
      Fp.mul Const.one (Fp.sub Const.two (shelfTail alpha)) = Fp.sub Const.two (shelfTail alpha) := by
  have htail := (Fp.finite_of_add h).2
  exact ⟨Fp.const_one_mul (Fp.isNaN_of_finite h), Fp.const_one_mul (Fp.rounds_sub rfl htail).isNaN⟩

/-- Settles O24: at `A = 1` the terms reduce to `2 ± 2 sqrt A alpha` outside and `±2 (A + 1) cw` in the
middle. -/
theorem shelvesAtZeroGainHaveMatchingCoefficients :
    Obligations.ShelvesAtZeroGainHaveMatchingCoefficients := by
  unfold Obligations.ShelvesAtZeroGainHaveMatchingCoefficients
  intro cw alpha hcw h0
  obtain ⟨hyNaN, hy0⟩ := two_mul_ne_zero hcw h0
  have hmiddle := shelf_middle hyNaN hy0
  have htwo : Fp.mul Const.two Const.one = Const.two := Fp.mul_const_one rfl
  have hminus : Fp.mul Const.minusTwo Const.one = Const.minusTwo := Fp.mul_const_one rfl
  rw [lowshelfTerms_one alpha hcw, highshelfTerms_one alpha hcw, htwo, hminus]
  constructor
  · intro hfin hz
    obtain ⟨hb0, hb2⟩ := shelf_outer hfin
    exact normalise_matching hfin hz hb0 hmiddle hb2
  · intro hfin hz
    obtain ⟨hb0, hb2⟩ := shelf_outer hfin
    exact normalise_matching hfin hz hb0 hmiddle.symm hb2

/-! ### The shaper is odd (R133) -/

@[simp] theorem abs_neg_eq (x : NUM) : Fp.abs (Fp.neg x) = Fp.abs x := Fp.ext (by simp) (by simp)

/-- Settles O44: the denominator looks at the sample's size only, and the opposite sample passes through
the numerator's products and the quotient. -/
theorem shaperIsOdd : Obligations.ShaperIsOdd := by
  unfold Obligations.ShaperIsOdd
  intro k x a h
  cases hz : Fp.isZero a with
  | true => rw [shaper_of_isZero k _ hz, shaper_of_isZero k _ hz]
  | false =>
    rw [shaper_of_not_isZero k _ hz] at h
    rw [shaper_of_not_isZero k _ hz, shaper_of_not_isZero k _ hz, abs_neg_eq]
    have hnum : Fp.isNaN (Fp.mul (Fp.mul (Fp.add Const.shapeC a) x) k) = false := by
      by_contra hNaN
      rw [Fp.isNaN_div (.inl (by simpa using hNaN))] at h
      exact Bool.false_ne_true h.symm
    have hinner : Fp.isNaN (Fp.mul (Fp.add Const.shapeC a) x) = false := by
      by_contra hNaN
      rw [Fp.isNaN_mul (.inl (by simpa using hNaN))] at hnum
      exact Bool.false_ne_true hnum.symm
    rw [Fp.mul_neg_right hinner, Fp.mul_neg_left hnum, Fp.div_neg_left h]

/-! ### Chug at amount 0 (R163) -/

end Machine

theorem Fp.zero_le_iff (a : NUM) : Fp.le Const.zero a = true ↔ Fp.isNaN a = false ∧ 0 ≤ Fp.ord a := by
  rw [Fp.le_iff, Fp.ord_zero]
  exact ⟨fun ⟨_, hNaN, hord⟩ => ⟨hNaN, hord⟩, fun ⟨hNaN, hord⟩ => ⟨rfl, hNaN, hord⟩⟩

theorem Fp.zero_le_of_finite {a : NUM} (h : Fp.finite a = true) :
    Fp.le Const.zero a = true ↔ 0 ≤ Fp.real a := by
  rw [Fp.le_iff_real rfl (Fp.isNaN_of_finite h), Fp.real_const_zero]

/-- A number that is not negative is finite or `+inf`. -/
theorem Fp.nonneg_cases {a : NUM} (h : Fp.le Const.zero a = true) :
    (Fp.finite a = true ∧ 0 ≤ Fp.real a) ∨ a = Fp.inf false := by
  obtain ⟨hNaN, hord⟩ := (Fp.zero_le_iff a).mp h
  rcases Fp.finite_or_eq_inf hNaN with ha | ha
  · exact .inl ⟨ha, (Fp.real_nonneg_iff a).mpr hord⟩
  · right
    cases hs : Fp.sign a with
    | false => rw [ha, hs]
    | true =>
      rw [ha, hs] at hord
      exact absurd hord (by decide)

theorem Fp.zero_le_abs {x : NUM} (h : Fp.isNaN x = false) : Fp.le Const.zero (Fp.abs x) = true := by
  rw [Fp.zero_le_iff, Fp.ord_eq, Fp.sign_abs]
  refine ⟨?_, by simp⟩
  rwa [Fp.isNaN_eq_false_iff, Fp.magnitude_abs, ← Fp.isNaN_eq_false_iff]

@[simp] theorem Fp.finite_abs (x : NUM) : Fp.finite (Fp.abs x) = Fp.finite x := by
  rw [Bool.eq_iff_iff, Fp.finite_iff, Fp.finite_iff, Fp.magnitude_abs]

@[simp] theorem Fp.real_abs (x : NUM) : Fp.real (Fp.abs x) = |Fp.real x| := by
  have h := Fp.abs_real_eq (Fp.abs x)
  rw [Fp.magnitude_abs, ← Fp.abs_real_eq, abs_of_nonneg (Fp.real_nonneg_of_sign (Fp.sign_abs x))] at h
  exact mul_right_cancel₀ (pow_ne_zero _ two_ne_zero) h

/-- A number that is not negative times a finite positive one is not negative. -/
theorem Fp.zero_le_mul {a b : NUM} (ha : Fp.le Const.zero a = true) (hb : Fp.finite b = true)
    (hpos : 0 < Fp.real b) : Fp.le Const.zero (Fp.mul a b) = true := by
  rcases Fp.nonneg_cases ha with ⟨hfin, hreal⟩ | rfl
  · have h := Fp.rounds_mul hfin hb
    exact (Fp.zero_le_iff _).mpr ⟨h.isNaN, h.ord_nonneg (mul_nonneg hreal hpos.le)⟩
  · have hz : Fp.isZero b = false := by
      by_contra hz
      exact hpos.ne' (Fp.real_of_isZero (by simpa using hz))
    have hs : Fp.sign b = false := by
      by_contra hs
      exact absurd hpos (not_lt.mpr (Fp.real_nonpos_of_sign (by simpa using hs)))
    have hmul : Fp.mul (Fp.inf false) b = Fp.inf false := by
      simp [Fp.mul, Fp.isNaN_of_finite hb, hz, hs]
    rw [hmul]
    decide

/-- Two numbers that are not negative have a sum that is not. -/
theorem Fp.zero_le_add {a b : NUM} (ha : Fp.le Const.zero a = true) (hb : Fp.le Const.zero b = true) :
    Fp.le Const.zero (Fp.add a b) = true := by
  rcases Fp.nonneg_cases ha with ⟨hafin, hareal⟩ | rfl
  · rcases Fp.nonneg_cases hb with ⟨hbfin, hbreal⟩ | rfl
    · have h := Fp.rounds_add hafin hbfin
      exact (Fp.zero_le_iff _).mpr ⟨h.isNaN, h.ord_nonneg (add_nonneg hareal hbreal)⟩
    · have hadd : Fp.add a (Fp.inf false) = Fp.inf false := by
        simp [Fp.add, Fp.addCore, Fp.isNaN_of_finite hafin, Fp.isInf_of_finite hafin]
      rw [hadd]
      decide
  · rcases Fp.nonneg_cases hb with ⟨hbfin, -⟩ | rfl
    · have hadd : Fp.add (Fp.inf false) b = Fp.inf false := by
        simp [Fp.add, Fp.addCore, Fp.isNaN_of_finite hbfin, Fp.isInf_of_finite hbfin]
      rw [hadd]
      decide
    · decide

/-- Taking off a number that is not negative does not raise a finite one. -/
theorem Fp.sub_le_self {a b : NUM} (ha : Fp.finite a = true) (hb : Fp.le Const.zero b = true) :
    Fp.isNaN (Fp.sub a b) = false ∧ Fp.ord (Fp.sub a b) ≤ Fp.ord a := by
  rcases Fp.nonneg_cases hb with ⟨hbfin, hbreal⟩ | rfl
  · have h := Fp.rounds_sub ha hbfin
    exact ⟨h.isNaN, h.ord_le ha (by linarith)⟩
  · have hsub : Fp.sub a (Fp.inf false) = Fp.inf true := by
      have hneg : Fp.neg (Fp.inf false) = Fp.inf true := rfl
      simp [Fp.sub, Fp.addCore, Fp.isNaN_of_finite ha, Fp.isInf_of_finite ha, hneg]
    rw [hsub]
    refine ⟨rfl, ?_⟩
    have hmag := (Fp.finite_iff a).mp ha
    have hord := (Fp.ord_le_magnitude a).2
    rw [Fp.ord_eq (Fp.inf true), Fp.sign_inf, Fp.magnitude_inf, if_pos rfl]
    omega

/-- A number between 0 and a finite one is finite. -/
theorem Fp.finite_of_ord_le {a b : NUM} (hb : Fp.finite b = true) (h0 : 0 ≤ Fp.ord a)
    (hle : Fp.ord a ≤ Fp.ord b) : Fp.finite a = true := by
  rw [Fp.finite_iff] at hb ⊢
  have hbMag := (Fp.ord_le_magnitude b).1
  have haMag : (Fp.magnitude a : Int) ≤ Fp.ord a := by
    rw [Fp.ord_eq] at h0 ⊢
    split at h0
    · next hs => simp only [hs, if_true]; omega
    · next hs => simp [hs]
  omega

namespace Machine

/-- The transient of a finite sample is finite, for an envelope that is not negative. -/
theorem finite_chugTransient {t : ChugTracker} {x : NUM} (hx : Fp.finite x = true)
    (henv : Fp.le Const.zero t.env = true) : Fp.finite (chugTransient t x) = true := by
  have hthresh : 0 < Fp.real Const.chugThresh := by
    rw [← Fp.real_const_zero, Fp.real_lt_iff_ord_lt]
    decide
  have habs : Fp.finite (Fp.abs x) = true := (Fp.finite_abs x).trans hx
  obtain ⟨hNaN, hle⟩ := Fp.sub_le_self habs (Fp.zero_le_mul henv rfl hthresh)
  rw [chugTransient]
  rcases Fp.max_cases (a := Const.zero) rfl hNaN with ⟨heq, -⟩ | ⟨heq, h0⟩
  · rw [heq]
    rfl
  · rw [heq]
    exact Fp.finite_of_ord_le habs h0 hle

/-- Settles O45: the transient is finite, so its product with a zero amount is a zero and the gain is 1. -/
theorem chugWithAmountZeroIsTheIdentity : Obligations.ChugWithAmountZeroIsTheIdentity := by
  unfold Obligations.ChugWithAmountZeroIsTheIdentity
  intro t amount x hamount hx henv
  have hprod := Fp.isZero_mul (finite_chugTransient hx henv) hamount
  have hscaled : Fp.isZero (Fp.mul (Fp.mul (chugTransient t x) amount) Const.four) = true :=
    Fp.isZero_mul_left hprod rfl
  rw [chugOut, Fp.add_zero_right (x := Const.one) rfl rfl hscaled, Fp.mul_const_one (Fp.isNaN_of_finite hx)]

end Machine

end Sys2Proof
end

section
/-! PROOFS of the Thicken family (43_thicken.md): the candidate window (R143), the phase (R149), the
sub-gain (R149), the tracker's invariants (R154) and the pseudocode of R155. -/

namespace Sys2Proof

/-! ### Order and whole numbers -/

theorem Fp.finite_ofNat {k : Nat} (hk : k < 2 ^ 53) : Fp.finite (Fp.ofNat k) = true :=
  (Fp.ofNat_exact hk).1

theorem Fp.real_ofNat {k : Nat} (hk : k < 2 ^ 53) : Fp.real (Fp.ofNat k) = k := (Fp.ofNat_exact hk).2

namespace Machine

/-! ### The candidate window (R143) -/

/-- Settles O46: 40 and 1500 are exact, and so are their neighbours 39 and 1499; a count on their one side
rounds to a NUM on the same side. -/
theorem candidateWindowIsFortyToFifteenHundred : Obligations.CandidateWindowIsFortyToFifteenHundred := by
  unfold Obligations.CandidateWindowIsFortyToFifteenHundred
  intro n
  have h := Fp.rounds_ofNat n
  have hNaN := h.isNaN
  have hlow : Fp.le Const.forty (Fp.ofNat n) = true ↔ 40 ≤ n := by
    rw [Fp.le_iff_real rfl hNaN, Fp.real_const_forty]
    constructor
    · intro hle
      by_contra hlt
      have hub := h.ord_le (y := Fp.ofNat 39) (Fp.finite_ofNat (by omega))
        (by rw [Fp.real_ofNat (by omega)]; exact_mod_cast Nat.le_of_lt_succ (Nat.lt_of_not_le hlt))
      rw [← Fp.real_le_iff_ord_le, Fp.real_ofNat (k := 39) (by omega)] at hub
      norm_num at hub
      linarith
    · intro hle
      rw [← Fp.real_const_forty, Fp.real_le_iff_ord_le]
      exact h.le_ord rfl (by rw [Fp.real_const_forty]; exact_mod_cast hle)
  have hhigh : Fp.lt (Fp.ofNat n) Const.thPmax = true ↔ n < 1500 := by
    rw [Fp.lt_iff_real hNaN rfl, Fp.real_const_thPmax]
    constructor
    · intro hlt
      by_contra hge
      have hlb := h.le_ord (y := Const.thPmax) rfl
        (by rw [Fp.real_const_thPmax]; exact_mod_cast Nat.le_of_not_lt hge)
      rw [← Fp.real_le_iff_ord_le, Fp.real_const_thPmax] at hlb
      linarith
    · intro hlt
      obtain ⟨-, -, hub⟩ := h.bounds (l := 0) (u := 1499) (by simp)
        (by exact_mod_cast Nat.le_of_lt_succ hlt) (by omega)
      norm_num at hub
      linarith
  rw [periodAccepted, Bool.and_eq_true, hlow, hhigh]

/-! ### The phase (R149) -/

theorem finite_twoPi : Fp.finite twoPi = true := by decide +kernel

theorem six_lt_twoPi : 6 < Fp.real twoPi := by
  have h : Fp.ord (Fp.ofNat 6) < Fp.ord twoPi := by decide +kernel
  rw [← Fp.real_lt_iff_ord_lt, Fp.real_ofNat (by omega)] at h
  exact_mod_cast h

theorem twoPi_lt_seven : Fp.real twoPi < 7 := by
  have h : Fp.ord twoPi < Fp.ord (Fp.ofNat 7) := by decide +kernel
  rw [← Fp.real_lt_iff_ord_lt, Fp.real_ofNat (by omega)] at h
  exact_mod_cast h

/-- The phase's increment for a period of the window is at most 1. -/
theorem phase_increment {locked : NUM} (hfin : Fp.finite locked = true) (hlow : 40 ≤ Fp.real locked)
    (hhigh : Fp.real locked < 1500) :
    Fp.finite (Fp.div twoPi (Fp.mul Const.two locked)) = true ∧
      0 ≤ Fp.real (Fp.div twoPi (Fp.mul Const.two locked)) ∧
      Fp.real (Fp.div twoPi (Fp.mul Const.two locked)) ≤ 1 := by
  obtain ⟨hdfin, hdlow, -⟩ := (Fp.rounds_mul (a := Const.two) rfl hfin).bounds (l := 80) (u := 3000)
    (by rw [Fp.real_const_two]; norm_num; linarith) (by rw [Fp.real_const_two]; norm_num; linarith) (by omega)
  norm_num at hdlow
  have hz : Fp.isZero (Fp.mul Const.two locked) = false := by
    by_contra hz
    have := Fp.real_of_isZero (by simpa using hz : Fp.isZero (Fp.mul Const.two locked) = true)
    linarith
  have hpi := six_lt_twoPi
  have hpi' := twoPi_lt_seven
  have hbounds := (Fp.rounds_div finite_twoPi hdfin hz).bounds (l := 0) (u := 1)
    (by rw [Nat.cast_zero]; exact div_nonneg (by linarith) (by linarith))
    (by rw [Nat.cast_one, div_le_one (by linarith)]; linarith) (by omega)
  exact_mod_cast hbounds

/-- Settles O48: the advanced phase is at most 8, which is less than two turns, so one subtraction brings
it back. -/
theorem phaseWrapsIntoOneTurn : Obligations.PhaseWrapsIntoOneTurn := by
  unfold Obligations.PhaseWrapsIntoOneTurn
  intro phase locked hphase hphase' hlocked hlocked'
  have hphaseFin : Fp.finite phase = true :=
    Fp.finite_of_ord_le finite_twoPi ((Fp.zero_le_iff _).mp hphase).2 ((Fp.lt_iff _ _).mp hphase').2.2.le
  have hlockedFin : Fp.finite locked = true := by
    have hle := ((Fp.le_iff _ _).mp hlocked).2.2
    have h40 : 0 ≤ Fp.ord Const.forty := by decide
    exact Fp.finite_of_ord_le (b := Const.thPmax) rfl (by omega) ((Fp.lt_iff _ _).mp hlocked').2.2.le
  rw [Fp.zero_le_of_finite hphaseFin] at hphase
  rw [Fp.lt_iff_real (Fp.isNaN_of_finite hphaseFin) (Fp.isNaN_of_finite finite_twoPi)] at hphase'
  rw [Fp.le_iff_real rfl (Fp.isNaN_of_finite hlockedFin), Fp.real_const_forty] at hlocked
  rw [Fp.lt_iff_real (Fp.isNaN_of_finite hlockedFin) rfl, Fp.real_const_thPmax] at hlocked'
  have hpi := six_lt_twoPi
  have hpi' := twoPi_lt_seven
  obtain ⟨hincFin, hincLow, hincHigh⟩ := phase_increment hlockedFin hlocked hlocked'
  obtain ⟨hmovedFin, hmovedLow, hmovedHigh⟩ := (Fp.rounds_add hphaseFin hincFin).bounds (l := 0) (u := 8)
    (by rw [Nat.cast_zero]; linarith) (by norm_num; linarith) (by omega)
  norm_num at hmovedLow hmovedHigh
  unfold advancePhase
  simp only
  generalize Fp.add phase (Fp.div twoPi (Fp.mul Const.two locked)) = moved at *
  split
  · next hwrap =>
    rw [Fp.le_iff_real (Fp.isNaN_of_finite finite_twoPi) (Fp.isNaN_of_finite hmovedFin)] at hwrap
    obtain ⟨hsubFin, hsubLow, hsubHigh⟩ := (Fp.rounds_sub hmovedFin finite_twoPi).bounds (l := 0) (u := 2)
      (by rw [Nat.cast_zero]; linarith) (by norm_num; linarith) (by omega)
    norm_num at hsubLow hsubHigh
    rw [Fp.zero_le_of_finite hsubFin,
      Fp.lt_iff_real (Fp.isNaN_of_finite hsubFin) (Fp.isNaN_of_finite finite_twoPi)]
    exact ⟨hsubLow, by linarith⟩
  · next hstay =>
    rw [Fp.le_iff_real (Fp.isNaN_of_finite finite_twoPi) (Fp.isNaN_of_finite hmovedFin), not_le] at hstay
    rw [Fp.zero_le_of_finite hmovedFin,
      Fp.lt_iff_real (Fp.isNaN_of_finite hmovedFin) (Fp.isNaN_of_finite finite_twoPi)]
    exact ⟨hmovedLow, hstay⟩

/-! ### What each step of a tracker changes -/

/-- `u` has the oscillator, the follower and the sub-gain of `t`: what the period tracker leaves alone. -/
def SameVoice (t u : ThickenTracker) : Prop := u.phase = t.phase ∧ u.env = t.env ∧ u.sub = t.sub

theorem SameVoice.trans {t u v : ThickenTracker} (htu : SameVoice t u) (huv : SameVoice u v) :
    SameVoice t v := by
  obtain ⟨hp, he, hs⟩ := htu
  obtain ⟨hp', he', hs'⟩ := huv
  exact ⟨hp'.trans hp, he'.trans he, hs'.trans hs⟩

theorem sameVoice_unlockOnJump (t : ThickenTracker) (p : NUM) : SameVoice t (unlockOnJump t p) := by
  unfold unlockOnJump
  split <;> exact ⟨rfl, rfl, rfl⟩

theorem sameVoice_pushPeriod (t : ThickenTracker) (p : NUM) : SameVoice t (pushPeriod t p) :=
  ⟨rfl, rfl, rfl⟩

theorem sameVoice_evaluateLock (t : ThickenTracker) : SameVoice t (evaluateLock t) := by
  unfold evaluateLock
  split <;> exact ⟨rfl, rfl, rfl⟩

theorem sameVoice_acceptPeriod (t : ThickenTracker) (p : NUM) : SameVoice t (acceptPeriod t p) :=
  (sameVoice_unlockOnJump t p).trans ((sameVoice_pushPeriod _ p).trans (sameVoice_evaluateLock _))

/-- The three ways of the period tracker: no crossing, a crossing whose period is outside the window, an
accepted period (R141 to R146). -/
theorem trackPeriod_cases (t : ThickenTracker) (x : NUM) :
    trackPeriod t x = { t with since := t.since + 1 } ∨ trackPeriod t x = { t with since := 0 } ∨
      (periodAccepted (Fp.ofNat (t.since + 1)) = true ∧
        trackPeriod t x = acceptPeriod { t with since := 0 } (Fp.ofNat (t.since + 1))) := by
  unfold trackPeriod
  simp only
  split
  · split
    · next haccepted => exact .inr (.inr ⟨haccepted, rfl⟩)
    · exact .inr (.inl rfl)
  · exact .inl rfl

theorem sameVoice_trackPeriod (t : ThickenTracker) (x : NUM) : SameVoice t (trackPeriod t x) := by
  rcases trackPeriod_cases t x with h | h | ⟨-, h⟩ <;> rw [h]
  · exact ⟨rfl, rfl, rfl⟩
  · exact ⟨rfl, rfl, rfl⟩
  · exact sameVoice_acceptPeriod { t with since := 0 } _

@[simp] theorem trackPeriod_phase (t : ThickenTracker) (x : NUM) : (trackPeriod t x).phase = t.phase :=
  (sameVoice_trackPeriod t x).1

@[simp] theorem trackPeriod_env (t : ThickenTracker) (x : NUM) : (trackPeriod t x).env = t.env :=
  (sameVoice_trackPeriod t x).2.1

@[simp] theorem trackPeriod_sub (t : ThickenTracker) (x : NUM) : (trackPeriod t x).sub = t.sub :=
  (sameVoice_trackPeriod t x).2.2

@[simp] theorem followSample_sub (t : ThickenTracker) (x : NUM) : (followSample t x).sub = t.sub := rfl
@[simp] theorem followSample_phase (t : ThickenTracker) (x : NUM) : (followSample t x).phase = t.phase := rfl
@[simp] theorem followSample_locked (t : ThickenTracker) (x : NUM) :
    (followSample t x).locked = t.locked := rfl
@[simp] theorem followSample_hcount (t : ThickenTracker) (x : NUM) :
    (followSample t x).hcount = t.hcount := rfl
@[simp] theorem followSample_hidx (t : ThickenTracker) (x : NUM) : (followSample t x).hidx = t.hidx := rfl
@[simp] theorem followSample_hist (t : ThickenTracker) (x : NUM) : (followSample t x).hist = t.hist := rfl
@[simp] theorem followSample_env (t : ThickenTracker) (x : NUM) : (followSample t x).env =
    Fp.add (Fp.mul t.env Const.envKeep) (Fp.mul (Fp.abs x) Const.envIn) := rfl

@[simp] theorem oscillate_locked (t : ThickenTracker) : (oscillate t).locked = t.locked := by
  unfold oscillate
  split <;> rfl

@[simp] theorem oscillate_hcount (t : ThickenTracker) : (oscillate t).hcount = t.hcount := by
  unfold oscillate
  split <;> rfl

@[simp] theorem oscillate_hidx (t : ThickenTracker) : (oscillate t).hidx = t.hidx := by
  unfold oscillate
  split <;> rfl

@[simp] theorem oscillate_hist (t : ThickenTracker) : (oscillate t).hist = t.hist := by
  unfold oscillate
  split <;> rfl

@[simp] theorem oscillate_env (t : ThickenTracker) : (oscillate t).env = t.env := by
  unfold oscillate
  split <;> rfl

theorem oscillate_sub (t : ThickenTracker) : (oscillate t).sub =
    if lockActive t then Fp.min Const.one (Fp.add t.sub Const.thAttack)
    else Fp.max Const.zero (Fp.sub t.sub Const.thRelease) := by
  cases h : lockActive t <;> simp [oscillate, h]

theorem oscillate_phase (t : ThickenTracker) : (oscillate t).phase =
    if lockActive t then advancePhase t.phase t.locked else t.phase := by
  cases h : lockActive t <;> simp [oscillate, h]

/-! ### The sub-gain (R149) -/

theorem unitInterval_iff (v : NUM) :
    unitInterval v = true ↔ Fp.isNaN v = false ∧ 0 ≤ Fp.ord v ∧ Fp.ord v ≤ Fp.ord Const.one := by
  rw [unitInterval, Bool.and_eq_true, Fp.zero_le_iff, Fp.le_iff]
  exact ⟨fun ⟨⟨hNaN, h0⟩, _, _, h1⟩ => ⟨hNaN, h0, h1⟩, fun ⟨hNaN, h0, h1⟩ => ⟨⟨hNaN, h0⟩, hNaN, rfl, h1⟩⟩

theorem finite_of_unitInterval {v : NUM} (h : unitInterval v = true) : Fp.finite v = true := by
  obtain ⟨-, h0, h1⟩ := (unitInterval_iff v).mp h
  exact Fp.finite_of_ord_le (b := Const.one) rfl h0 h1

/-- One ramp up stops at 1. -/
theorem unitInterval_attack {v : NUM} (h : unitInterval v = true) :
    unitInterval (Fp.min Const.one (Fp.add v Const.thAttack)) = true := by
  have hfin := finite_of_unitInterval h
  obtain ⟨-, h0, -⟩ := (unitInterval_iff v).mp h
  have hstep : 0 ≤ Fp.real Const.thAttack := (Fp.real_nonneg_iff _).mpr (by decide)
  have hadd := Fp.rounds_add hfin (b := Const.thAttack) rfl
  have hpos := hadd.ord_nonneg (add_nonneg ((Fp.real_nonneg_iff v).mpr h0) hstep)
  rw [unitInterval_iff]
  rcases Fp.min_cases (a := Const.one) rfl hadd.isNaN with ⟨heq, -⟩ | ⟨heq, hle⟩
  · rw [heq]
    exact ⟨rfl, by decide, le_rfl⟩
  · rw [heq]
    exact ⟨hadd.isNaN, hpos, hle⟩

/-- One ramp down stops at 0. -/
theorem unitInterval_release {v : NUM} (h : unitInterval v = true) :
    unitInterval (Fp.max Const.zero (Fp.sub v Const.thRelease)) = true := by
  have hfin := finite_of_unitInterval h
  obtain ⟨-, -, h1⟩ := (unitInterval_iff v).mp h
  have hstep : Fp.le Const.zero Const.thRelease = true := by decide
  obtain ⟨hNaN, hle⟩ := Fp.sub_le_self hfin hstep
  rw [unitInterval_iff]
  rcases Fp.max_cases (a := Const.zero) rfl hNaN with ⟨heq, -⟩ | ⟨heq, h0⟩
  · rw [heq]
    exact ⟨rfl, le_rfl, by decide⟩
  · rw [heq]
    exact ⟨hNaN, h0, hle.trans h1⟩

/-- Settles O47: the period tracker and the follower leave `sub` alone, and either ramp of the oscillator
stays in the interval. -/
theorem subGainStaysInTheUnitInterval : Obligations.SubGainStaysInTheUnitInterval := by
  unfold Obligations.SubGainStaysInTheUnitInterval
  intro t x h
  rw [thickenStep, oscillate_sub, followSample_sub, trackPeriod_sub]
  split
  · exact unitInterval_attack h
  · exact unitInterval_release h

/-! ### The tracker's invariants (R154) -/

/-- What of R154 concerns the ring and the lock. -/
structure RingTracks (t : ThickenTracker) : Prop where
  count : t.hcount ≤ 4
  next : t.hcount < 4 → t.hidx.val = t.hcount
  entries : ∀ i : Fin 4, i.val < t.hcount → ∃ k, 40 ≤ k ∧ k < 1500 ∧ t.hist[i] = Fp.ofNat k
  locked : t.locked = Const.zero ∨
    (t.hcount = 4 ∧ Fp.le Const.forty t.locked = true ∧ Fp.lt t.locked Const.thPmax = true)

theorem RingTracks.of_trackerOk {t : ThickenTracker} (h : TrackerOk t) : RingTracks t :=
  ⟨h.count, h.next, h.entries, h.locked⟩

/-- An empty ring without a lock. -/
theorem RingTracks.of_empty {t : ThickenTracker} (hcount : t.hcount = 0) (hidx : t.hidx = 0)
    (hlocked : t.locked = Const.zero) : RingTracks t where
  count := by omega
  next _ := by rw [hidx, hcount]; rfl
  entries i hi := by omega
  locked := .inl hlocked

theorem ringTracks_unlockOnJump {t : ThickenTracker} (h : RingTracks t) (p : NUM) :
    RingTracks (unlockOnJump t p) := by
  unfold unlockOnJump
  split
  · exact RingTracks.of_empty rfl rfl rfl
  · exact h

/-- A period of the window goes into the first slot without one, or over the oldest of a full ring. -/
theorem ringTracks_pushPeriod {t : ThickenTracker} (h : RingTracks t) {k : Nat} (hk : 40 ≤ k)
    (hk' : k < 1500) : RingTracks (pushPeriod t (Fp.ofNat k)) where
  count := Nat.min_le_left _ _
  next hlt := by
    have hcount : t.hcount + 1 < 4 := by
      change Min.min 4 (t.hcount + 1) < 4 at hlt
      omega
    have hidx := h.next (by omega)
    change (t.hidx + 1).val = Min.min 4 (t.hcount + 1)
    rw [Fin.val_add_one_of_lt' (by omega)]
    omega
  entries i hi := by
    change i.val < Min.min 4 (t.hcount + 1) at hi
    by_cases hslot : t.hidx = i
    · refine ⟨k, hk, hk', ?_⟩
      subst hslot
      exact Vector.getElem_set_self _
    · have hne : t.hidx.val ≠ i.val := fun e => hslot (Fin.ext e)
      have hold : i.val < t.hcount := by
        have := h.next
        have := h.count
        omega
      obtain ⟨j, hj, hj', hentry⟩ := h.entries i hold
      exact ⟨j, hj, hj', (Vector.getElem_set_ne t.hidx.isLt i.isLt hne).trans hentry⟩
  locked := h.locked.imp id fun ⟨hcount, hbounds⟩ =>
    ⟨by change Min.min 4 (t.hcount + 1) = 4; omega, hbounds⟩

/-- A finite value between two whole numbers. -/
def Between (l u : Nat) (v : NUM) : Prop := Fp.finite v = true ∧ (l : ℝ) ≤ Fp.real v ∧ Fp.real v ≤ u

/-- A whole number of the window, as a NUM. -/
theorem between_ofNat {k : Nat} (hk : 40 ≤ k) (hk' : k < 1500) : Between 40 1499 (Fp.ofNat k) := by
  obtain ⟨hfin, hreal⟩ := Fp.ofNat_exact (k := k) (by omega)
  refine ⟨hfin, ?_, ?_⟩ <;> rw [hreal, Nat.cast_le]
  · exact hk
  · exact Nat.le_of_lt_succ hk'

theorem Between.add {l u l' u' : Nat} {a b : NUM} (ha : Between l u a) (hb : Between l' u' b)
    (hu : u + u' < 2 ^ 53) : Between (l + l') (u + u') (Fp.add a b) := by
  obtain ⟨hafin, hal, hau⟩ := ha
  obtain ⟨hbfin, hbl, hbu⟩ := hb
  exact (Fp.rounds_add hafin hbfin).bounds (by push_cast; linarith) (by push_cast; linarith) hu

/-- The mean of four values of the window lies in it. -/
theorem mean_bounds {a b c d : NUM} (ha : Between 40 1499 a) (hb : Between 40 1499 b)
    (hc : Between 40 1499 c) (hd : Between 40 1499 d) :
    Between 40 1499 (Fp.div (Fp.add (Fp.add (Fp.add a b) c) d) Const.four) := by
  obtain ⟨hfin, hlow, hhigh⟩ := ((ha.add hb (by omega)).add hc (by omega)).add hd (by omega)
  refine (Fp.rounds_div hfin (b := Const.four) rfl rfl).bounds ?_ ?_ (by omega) <;>
    rw [Fp.real_const_four] <;> norm_num at hlow hhigh ⊢ <;> linarith

/-- The mean of four entries of the window lies in it. -/
theorem ringMean_bounds {h : Vector NUM 4}
    (hh : ∀ i : Fin 4, ∃ k, 40 ≤ k ∧ k < 1500 ∧ h[i] = Fp.ofNat k) :
    Fp.le Const.forty (ringMean h) = true ∧ Fp.lt (ringMean h) Const.thPmax = true := by
  have hentry : ∀ i : Fin 4, Between 40 1499 h[i] := fun i => by
    obtain ⟨k, hk, hk', heq⟩ := hh i
    rw [heq]
    exact between_ofNat hk hk'
  have hmean : Between 40 1499 (ringMean h) := mean_bounds (hentry 0) (hentry 1) (hentry 2) (hentry 3)
  obtain ⟨hfin, hlow, hhigh⟩ := hmean
  have hNaN := Fp.isNaN_of_finite hfin
  rw [Fp.le_iff_real rfl hNaN, Fp.lt_iff_real hNaN rfl, Fp.real_const_forty, Fp.real_const_thPmax]
  norm_num at hlow hhigh
  exact ⟨hlow, by linarith⟩

theorem ringTracks_evaluateLock {t : ThickenTracker} (h : RingTracks t) : RingTracks (evaluateLock t) := by
  unfold evaluateLock
  split
  · next hlock =>
    have hfull := hlock.1
    exact
      { count := h.count
        next := h.next
        entries := h.entries
        locked := .inr ⟨hfull, ringMean_bounds fun i => h.entries i (by omega)⟩ }
  · exact h

theorem ringTracks_trackPeriod {t : ThickenTracker} (h : RingTracks t) (x : NUM) :
    RingTracks (trackPeriod t x) := by
  rcases trackPeriod_cases t x with htrack | htrack | ⟨haccepted, htrack⟩ <;> rw [htrack]
  · exact ⟨h.count, h.next, h.entries, h.locked⟩
  · exact ⟨h.count, h.next, h.entries, h.locked⟩
  · obtain ⟨hk, hk'⟩ := (candidateWindowIsFortyToFifteenHundred _).mp haccepted
    have hrestarted : RingTracks { t with since := 0 } := ⟨h.count, h.next, h.entries, h.locked⟩
    exact ringTracks_evaluateLock (ringTracks_pushPeriod (ringTracks_unlockOnJump hrestarted _) hk hk')

/-- The follower of a number that is no NaN stays a number that is not negative (R147). -/
theorem zero_le_follow {env x : NUM} (henv : Fp.le Const.zero env = true) (hx : Fp.isNaN x = false) :
    Fp.le Const.zero (Fp.add (Fp.mul env Const.envKeep) (Fp.mul (Fp.abs x) Const.envIn)) = true := by
  have hkeep : 0 < Fp.real Const.envKeep := by
    rw [← Fp.real_const_zero, Fp.real_lt_iff_ord_lt]
    decide
  have hin : 0 < Fp.real Const.envIn := by
    rw [← Fp.real_const_zero, Fp.real_lt_iff_ord_lt]
    decide
  exact Fp.zero_le_add (Fp.zero_le_mul henv rfl hkeep) (Fp.zero_le_mul (Fp.zero_le_abs hx) rfl hin)

/-- A lock that is active is a period of the window. -/
theorem RingTracks.of_lockActive {t : ThickenTracker} (h : RingTracks t) (hactive : lockActive t = true) :
    Fp.le Const.forty t.locked = true ∧ Fp.lt t.locked Const.thPmax = true := by
  rcases h.locked with hzero | ⟨-, hbounds⟩
  · rw [lockActive, hzero, Bool.and_eq_true] at hactive
    exact absurd hactive.1 (by decide)
  · exact hbounds

theorem trackerOk_thickenReset : TrackerOk thickenReset where
  count := Nat.zero_le _
  next _ := rfl
  entries i hi := absurd hi (Nat.not_lt_zero _)
  locked := .inl rfl
  sub := by decide
  phase := by decide +kernel
  env := by decide

/-- Settles O49: the ring and the lock through the period tracker, the envelope through the follower, and
the phase and the sub-gain through the oscillator, whose lock is a period of the window. -/
theorem thickenKeepsItsTrackerInvariants : Obligations.ThickenKeepsItsTrackerInvariants := by
  unfold Obligations.ThickenKeepsItsTrackerInvariants
  refine ⟨trackerOk_thickenReset, fun t x h hx => ?_⟩
  have hring := ringTracks_trackPeriod (RingTracks.of_trackerOk h) x
  have hfollowed : RingTracks (followSample (trackPeriod t x) x) :=
    ⟨hring.count, hring.next, hring.entries, hring.locked⟩
  refine
    { count := by simpa [thickenStep] using hring.count
      next := by simpa [thickenStep] using hring.next
      entries := by simpa [thickenStep] using hring.entries
      locked := by simpa [thickenStep] using hring.locked
      sub := subGainStaysInTheUnitInterval t x h.sub
      phase := ?_
      env := by simpa [thickenStep] using zero_le_follow h.env hx }
  rw [thickenStep, oscillate_phase, followSample_phase, trackPeriod_phase]
  split
  · next hactive =>
    obtain ⟨hlow, hhigh⟩ := hfollowed.of_lockActive hactive
    exact phaseWrapsIntoOneTurn _ _ h.phase.1 h.phase.2 hlow hhigh
  · exact h.phase

/-! ### The ring alone, for every sample (10_state.md R25) -/

/-- A lock needs a full ring, whatever the sample and the entries. -/
theorem ringOk_trackPeriod {t : ThickenTracker} (h : ringOk t) (x : NUM) : ringOk (trackPeriod t x) := by
  obtain ⟨hcount, hlock⟩ := h
  have hzero : Fp.lt Const.zero Const.zero = false := by decide
  have hunlocked : ∀ p : NUM, ringOk (unlockOnJump { t with since := 0 } p) := fun p => by
    unfold unlockOnJump
    split
    · exact ⟨Nat.zero_le _, fun h => absurd (hzero.symm.trans h) Bool.false_ne_true⟩
    · exact ⟨hcount, hlock⟩
  have hpushed : ∀ p : NUM, ringOk (pushPeriod (unlockOnJump { t with since := 0 } p) p) := fun p =>
    ⟨Nat.min_le_left _ _, fun h => by
      have hfull := (hunlocked p).2 h
      change Min.min 4 (_ + 1) = 4
      omega⟩
  rcases trackPeriod_cases t x with htrack | htrack | ⟨-, htrack⟩ <;> rw [htrack]
  · exact ⟨hcount, hlock⟩
  · exact ⟨hcount, hlock⟩
  · unfold acceptPeriod evaluateLock
    split
    · next hevaluated => exact ⟨(hpushed _).1, fun _ => hevaluated.1⟩
    · exact hpushed _

theorem ringOk_thickenStep {t : ThickenTracker} (h : ringOk t) (x : NUM) : ringOk (thickenStep t x) := by
  have htracked := ringOk_trackPeriod h x
  simpa [ringOk, thickenStep] using htracked

/-! ### The pseudocode (R155) -/

theorem unlockOnJump_eq (t : ThickenTracker) (p : NUM) : unlockOnJump t p =
    if Fp.lt Const.zero t.locked = true ∧
        Fp.lt (Fp.mul Const.thDev t.locked) (Fp.abs (Fp.sub p t.locked)) = true then
      { t with
        hist := #v[Const.zero, Const.zero, Const.zero, Const.zero]
        hidx := 0
        hcount := 0
        locked := Const.zero }
    else t := by
  rw [unlockOnJump, disqualifies]
  simp only [Bool.and_eq_true]
  rfl

theorem trackPeriod_eq (t : ThickenTracker) (x : NUM) : trackPeriod t x =
    if Fp.le t.last Const.zero = true ∧ Fp.lt Const.zero x = true then
      if Fp.le Const.forty (Fp.ofNat (t.since + 1)) = true ∧
          Fp.lt (Fp.ofNat (t.since + 1)) Const.thPmax = true then
        acceptPeriod { t with since := 0 } (Fp.ofNat (t.since + 1))
      else { t with since := 0 }
    else { t with since := t.since + 1 } := by
  rw [trackPeriod]
  simp only [risingCrossing, periodAccepted, Bool.and_eq_true]

theorem oscillate_eq (t : ThickenTracker) : oscillate t =
    if Fp.lt Const.zero t.locked = true ∧ Fp.lt Const.thGate t.env = true then
      { t with
        phase := advancePhase t.phase t.locked
        sub := Fp.min Const.one (Fp.add t.sub Const.thAttack) }
    else { t with sub := Fp.max Const.zero (Fp.sub t.sub Const.thRelease) } := by
  rw [oscillate, lockActive]
  simp only [Bool.and_eq_true]

/-- The seven operations in a row are the rule's pseudocode. -/
theorem thickenPseudocode_eq (t : ThickenTracker) (x : NUM) : thickenPseudocode t x = thickenStep t x := by
  rw [thickenStep, oscillate_eq, trackPeriod_eq, acceptPeriod, unlockOnJump_eq]
  rfl

theorem exec_thick (p : Pred) (s : State) : exec (.thick p) s = .next (staged p opThick s) := rfl

/-- Settles O17: an executed `THICK` is the seven operations on the current channel's tracker, and those are
the pseudocode. -/
theorem thickFollowsItsPseudocode : Obligations.ThickFollowsItsPseudocode := by
  unfold Obligations.ThickFollowsItsPseudocode
  intro p s
  rw [exec_thick, thickenPseudocode_eq]
  refine ⟨fun hp => ?_, fun hp => ?_⟩
  · rw [staged_of_fails hp]
    rfl
  · rw [staged_of_holds hp]
    rfl

end Machine

end Sys2Proof
end

section
/-! PROOFS of the designer's arguments (40_designer.md R100 to R112, 45_tonestack_peq_lofi.md): sliders,
clamps, frequencies, the settings they come from, and `DSGN`. -/

namespace Sys2Proof

namespace Machine

/-! ### Sliders (R176) -/

theorem nonnegative_iff (v : NUM) :
    nonnegative v = true ↔ Fp.finite v = true ∧ Fp.le Const.zero v = true := by
  rw [nonnegative, Bool.and_eq_true]

theorem positive_iff (v : NUM) : positive v = true ↔ Fp.finite v = true ∧ Fp.lt Const.zero v = true := by
  rw [positive, Bool.and_eq_true]

theorem slider_flat : Fp.div (Fp.sub Const.five Const.five) Const.five = Const.zero := by decide +kernel

theorem slider_top : Fp.div (Fp.sub 0x4024000000000000#64 Const.five) Const.five = Const.one := by
  decide +kernel

theorem slider_bottom : Fp.div (Fp.sub Const.zero Const.five) Const.five = Fp.neg Const.one := by
  decide +kernel

/-- From 0 to 10 a slider's distance from 5 is at most 5, its share of that at most 1, and its gain at
most the range. -/
theorem sliderDb_between {v range : NUM} (hrange : nonnegative range = true)
    (hlow : Fp.le Const.zero v = true) (hhigh : Fp.le v 0x4024000000000000#64 = true) :
    Fp.finite (sliderDb v range) = true ∧ Fp.le (Fp.abs (sliderDb v range)) range = true := by
  obtain ⟨hrangeFin, hrangeNonneg⟩ := (nonnegative_iff range).mp hrange
  rw [Fp.zero_le_of_finite hrangeFin] at hrangeNonneg
  have hvFin : Fp.finite v = true :=
    Fp.finite_of_ord_le (b := 0x4024000000000000#64) rfl ((Fp.zero_le_iff v).mp hlow).2
      ((Fp.le_iff _ _).mp hhigh).2.2
  have hten : Fp.real 0x4024000000000000#64 = 10 := by
    simpa using Fp.real_eq_of_value (x := 0x4024000000000000#64) (q := 10) (by decide +kernel)
  rw [Fp.zero_le_of_finite hvFin] at hlow
  rw [Fp.le_iff_real (Fp.isNaN_of_finite hvFin) rfl, hten] at hhigh
  obtain ⟨hsubFin, hsub⟩ := (Fp.rounds_sub hvFin (b := Const.five) rfl).abs_real_le (y := Const.five) rfl (by
    rw [Fp.real_const_five, abs_of_pos (by norm_num : (0 : ℝ) < 5), abs_le]
    constructor <;> linarith)
  obtain ⟨hdivFin, hdiv⟩ := (Fp.rounds_div hsubFin (b := Const.five) rfl rfl).abs_real_le (y := Const.one) rfl
    (by
      rw [Fp.real_const_five] at hsub ⊢
      rw [abs_div, Fp.real_const_one, abs_one]
      exact div_le_one_of_le₀ hsub (abs_nonneg _))
  obtain ⟨hmulFin, hmul⟩ := (Fp.rounds_mul hdivFin hrangeFin).abs_real_le hrangeFin (by
    rw [Fp.real_const_one, abs_one] at hdiv
    rw [abs_mul]
    exact mul_le_of_le_one_left (abs_nonneg _) hdiv)
  refine ⟨hmulFin, ?_⟩
  rw [sliderDb, Fp.le_iff_real (Fp.isNaN_of_finite ((Fp.finite_abs _).trans hmulFin))
    (Fp.isNaN_of_finite hrangeFin), Fp.real_abs]
  exact hmul.trans_eq (abs_of_nonneg hrangeNonneg)

/-- Settles O28: at 5, 10 and 0 the share of the range is 0, 1 and -1 exactly; between, `sliderDb_between`. -/
theorem sliderEndsAreTheRange : Obligations.SliderEndsAreTheRange := by
  unfold Obligations.SliderEndsAreTheRange
  refine ⟨fun _ _ => rfl, fun range hrange => ?_⟩
  obtain ⟨hfin, -⟩ := (nonnegative_iff range).mp hrange
  have hone := Fp.const_one_mul (Fp.isNaN_of_finite hfin)
  refine ⟨?_, ?_, ?_, fun v hlow hhigh => sliderDb_between hrange hlow hhigh⟩
  · change Fp.isZero (Fp.mul (Fp.div (Fp.sub Const.five Const.five) Const.five) range) = true
    rw [slider_flat]
    exact Fp.isZero_mul_left rfl hfin
  · change Fp.mul (Fp.div (Fp.sub 0x4024000000000000#64 Const.five) Const.five) range = range
    rw [slider_top, hone]
  · change Fp.mul (Fp.div (Fp.sub Const.zero Const.five) Const.five) range = Fp.neg range
    have hNaN : Fp.isNaN (Fp.mul Const.one range) = false := by rw [hone]; exact Fp.isNaN_of_finite hfin
    rw [slider_bottom, Fp.mul_neg_left hNaN, hone]

/-! ### Clamps (R178, R184) -/

/-- A clamped finite value is finite, and between the bounds' smaller and larger. -/
theorem clamp_bounds {v lo hi : NUM} (hv : Fp.finite v = true) (hlo : Fp.finite lo = true)
    (hhi : Fp.finite hi = true) : Fp.finite (Fp.clamp v lo hi) = true ∧
      Fp.ord (Fp.clamp v lo hi) ≤ Fp.ord hi ∧
      (0 < Fp.ord lo → 0 < Fp.ord hi → 0 < Fp.ord (Fp.clamp v lo hi)) := by
  have hvNaN := Fp.isNaN_of_finite hv
  have hloNaN := Fp.isNaN_of_finite hlo
  have hhiNaN := Fp.isNaN_of_finite hhi
  have hmax : Fp.finite (Fp.max v lo) = true ∧ Fp.ord lo ≤ Fp.ord (Fp.max v lo) := by
    rcases Fp.max_cases hvNaN hloNaN with ⟨heq, hle⟩ | ⟨heq, -⟩ <;> rw [heq]
    · exact ⟨hv, hle⟩
    · exact ⟨hlo, le_rfl⟩
  obtain ⟨hmaxFin, hmaxLe⟩ := hmax
  unfold Fp.clamp
  rcases Fp.min_cases (Fp.isNaN_of_finite hmaxFin) hhiNaN with ⟨heq, hle⟩ | ⟨heq, -⟩ <;> rw [heq]
  · exact ⟨hmaxFin, hle, fun h0 _ => h0.trans_le hmaxLe⟩
  · exact ⟨hhi, le_rfl, fun _ h1 => h1⟩

/-! ### Frequencies below half the sample rate (R112, R184) -/

theorem nyquistShare_bounds : 0.48 ≤ Fp.real Const.nyquistShare ∧ Fp.real Const.nyquistShare ≤ 0.491 := by
  have hlow : 48 * 2 ^ 1074 ≤ 100 * Fp.value Const.nyquistShare := by decide +kernel
  have hhigh : 1000 * Fp.value Const.nyquistShare ≤ 491 * 2 ^ 1074 := by decide +kernel
  have hpos : (0 : ℝ) < 2 ^ 1074 := by positivity
  have hlowR : (48 : ℝ) * 2 ^ 1074 ≤ 100 * Fp.value Const.nyquistShare := by
    have := (Int.cast_le (R := ℝ)).mpr hlow
    rwa [Int.cast_mul, Int.cast_mul, Int.cast_pow, Int.cast_ofNat, Int.cast_ofNat, Int.cast_ofNat] at this
  have hhighR : 1000 * (Fp.value Const.nyquistShare : ℝ) ≤ 491 * 2 ^ 1074 := by
    have := (Int.cast_le (R := ℝ)).mpr hhigh
    rwa [Int.cast_mul, Int.cast_mul, Int.cast_pow, Int.cast_ofNat, Int.cast_ofNat, Int.cast_ofNat] at this
  rw [← Fp.real_mul_pow] at hlowR hhighR
  generalize (2 : ℝ) ^ 1074 = unit at *
  constructor <;> nlinarith

/-- A normal positive number has a full significand. -/
theorem normal_units {sr : NUM} (hfin : Fp.finite sr = true)
    (hnormal : Fp.le 0x0010000000000000#64 sr = true) :
    ∃ e q : ℕ, e ≤ 2045 ∧ 2 ^ 52 ≤ q ∧ q < 2 ^ 53 ∧ Fp.real sr * 2 ^ 1074 = q * 2 ^ e := by
  have hord := ((Fp.le_iff _ _).mp hnormal).2.2
  have hmin : Fp.ord 0x0010000000000000#64 = 2 ^ 52 := by decide
  have hmag := (Fp.ord_le_magnitude sr).1
  have hinf := (Fp.finite_iff sr).mp hfin
  obtain ⟨e, q, hM, hq, he⟩ := Fp.unitsAt_eq (Fp.magnitude sr)
  have hpos : 0 ≤ Fp.real sr := (Fp.real_nonneg_iff sr).mpr (by omega)
  unfold Fp.infMagnitude at hinf
  refine ⟨e, q, by omega, by omega, hq, ?_⟩
  rw [← abs_of_nonneg hpos, Fp.abs_real_eq, hM, Fp.unitsAt_scaled hq.le he, Nat.cast_mul, Nat.cast_pow,
    Nat.cast_ofNat]

/-- For a normal sample rate, between its share 0.49 and its half lie two finite NUMs, so that rounding
keeps them apart; and its share stays positive. -/
theorem nyquist_lt_half {sr : NUM} (hfin : Fp.finite sr = true)
    (hnormal : Fp.le 0x0010000000000000#64 sr = true) :
    Fp.finite (Fp.mul Const.nyquistShare sr) = true ∧ 0 < Fp.ord (Fp.mul Const.nyquistShare sr) ∧
      Fp.ord (Fp.mul Const.nyquistShare sr) < Fp.ord (Fp.div sr Const.two) := by
  obtain ⟨e, q, he, hq, hq', hsr⟩ := normal_units hfin hnormal
  obtain ⟨y0, hy0, -, hr0⟩ := Fp.exists_real (t := 1) (by omega) he
  obtain ⟨y1, hy1, -, hr1⟩ := Fp.exists_real (t := 99 * q / 200) (by omega) he
  obtain ⟨y2, hy2, -, hr2⟩ := Fp.exists_real (t := 99 * q / 200 + 1) (by omega) he
  have hmul := Fp.rounds_mul (a := Const.nyquistShare) rfl hfin
  have hdiv := Fp.rounds_div hfin (b := Const.two) rfl rfl
  obtain ⟨hshareLow, hshareHigh⟩ := nyquistShare_bounds
  set t := 99 * q / 200 with ht
  have htLow : (0.491 : ℝ) * q ≤ t := by
    have : 491 * q ≤ 1000 * t := by omega
    have hcast : (491 : ℝ) * q ≤ 1000 * t := by exact_mod_cast this
    linarith
  have htHigh : (t : ℝ) + 1 ≤ q / 2 := by
    have : 2 * (t + 1) ≤ q := by omega
    have hcast : (2 : ℝ) * (t + 1) ≤ q := by exact_mod_cast this
    linarith
  have hqBig : (4 : ℝ) ≤ q := by exact_mod_cast (show 4 ≤ q by omega)
  push_cast at hr0 hr2
  have hunit : (0 : ℝ) < 2 ^ 1074 := by positivity
  have hstep : (0 : ℝ) < 2 ^ e := by positivity
  rw [Fp.real_const_two] at hdiv
  generalize (2 : ℝ) ^ 1074 = unit at *
  generalize (2 : ℝ) ^ e = step at *
  have hsrPos : 0 < Fp.real sr := by
    by_contra hneg
    have : Fp.real sr * unit ≤ 0 := mul_nonpos_of_nonpos_of_nonneg (not_lt.mp hneg) hunit.le
    nlinarith
  have h0 : 0 < Fp.real y0 := by
    by_contra hneg
    have : Fp.real y0 * unit ≤ 0 := mul_nonpos_of_nonpos_of_nonneg (not_lt.mp hneg) hunit.le
    linarith
  have h0mul : Fp.real y0 ≤ Fp.real Const.nyquistShare * Fp.real sr := by
    refine le_of_mul_le_mul_right ?_ hunit
    rw [hr0, mul_assoc, hsr]
    nlinarith [mul_le_mul hshareLow hqBig (by norm_num) (by linarith)]
  have hmul1 : Fp.real Const.nyquistShare * Fp.real sr ≤ Fp.real y1 := by
    refine le_of_mul_le_mul_right ?_ hunit
    rw [hr1, mul_assoc, hsr, ← mul_assoc]
    refine mul_le_mul_of_nonneg_right (le_trans ?_ htLow) hstep.le
    exact mul_le_mul_of_nonneg_right hshareHigh (by positivity)
  have h12 : Fp.real y1 < Fp.real y2 := by
    refine lt_of_mul_lt_mul_right ?_ hunit.le
    rw [hr1, hr2]
    linarith
  have h2div : Fp.real y2 ≤ Fp.real sr / 2 := by
    refine le_of_mul_le_mul_right ?_ hunit
    rw [hr2, div_mul_eq_mul_div, hsr, mul_div_right_comm]
    exact mul_le_mul_of_nonneg_right htHigh hstep.le
  have hlow := hmul.le_ord hy0 h0mul
  have hmid := hmul.ord_le hy1 hmul1
  have hhigh := hdiv.le_ord hy2 h2div
  have h0ord : 0 < Fp.ord y0 := by
    rw [← Fp.ord_zero, ← Fp.real_lt_iff_ord_lt, Fp.real_const_zero]
    exact h0
  rw [Fp.real_lt_iff_ord_lt] at h12
  exact ⟨Fp.finite_of_ord_le hy1 (by omega) hmid, by omega, by omega⟩

/-- The designer's precondition on a frequency. -/
def FrequencyOk (cfg : Cfg) (f : NUM) : Prop :=
  Fp.finite f = true ∧ Fp.lt Const.zero f = true ∧ Fp.lt f (Fp.div cfg.sr Const.two) = true

/-- The designer's precondition on a Q, and on a gain that `SliderDb` does not make. -/
def QualityOk (q : NUM) : Prop := Fp.finite q = true ∧ Fp.lt Const.zero q = true

theorem zero_lt_iff {v : NUM} (h : Fp.finite v = true) : Fp.lt Const.zero v = true ↔ 0 < Fp.ord v := by
  rw [Fp.lt_iff, Fp.ord_zero]
  exact ⟨fun ⟨_, _, hord⟩ => hord, fun hord => ⟨rfl, Fp.isNaN_of_finite h, hord⟩⟩

/-- `ClampF` of any finite frequency is one the designer takes, at every normal sample rate. -/
theorem frequencyOk_clampF {cfg : Cfg} (hsr : Fp.finite cfg.sr = true)
    (hnormal : Fp.le 0x0010000000000000#64 cfg.sr = true) {f : NUM} (hf : Fp.finite f = true) :
    FrequencyOk cfg (clampF cfg f) := by
  obtain ⟨hshareFin, hsharePos, hshareLt⟩ := nyquist_lt_half hsr hnormal
  have hceil : Fp.finite (fCeil cfg) = true ∧ 0 < Fp.ord (fCeil cfg) ∧
      Fp.ord (fCeil cfg) < Fp.ord (Fp.div cfg.sr Const.two) := by
    unfold fCeil
    rcases Fp.min_cases (a := Const.peqFMax) rfl (Fp.isNaN_of_finite hshareFin) with ⟨heq, hle⟩ | ⟨heq, -⟩ <;>
      rw [heq]
    · exact ⟨rfl, by decide, hle.trans_lt hshareLt⟩
    · exact ⟨hshareFin, hsharePos, hshareLt⟩
  obtain ⟨hceilFin, hceilPos, hceilLt⟩ := hceil
  obtain ⟨hfin, hle, hpos⟩ := clamp_bounds hf (lo := Const.peqFMin) rfl hceilFin
  have hdiv := (Fp.rounds_div hsr (b := Const.two) rfl rfl).isNaN
  exact ⟨hfin, (zero_lt_iff hfin).mpr (hpos (by decide) hceilPos),
    (Fp.lt_iff _ _).mpr ⟨Fp.isNaN_of_finite hfin, hdiv, hle.trans_lt hceilLt⟩⟩

theorem qualityOk_clamp {q : NUM} (hq : Fp.finite q = true) :
    QualityOk (Fp.clamp q Const.peqQMin Const.peqQMax) := by
  obtain ⟨hfin, -, hpos⟩ := clamp_bounds hq (lo := Const.peqQMin) (hi := Const.peqQMax) rfl rfl
  exact ⟨hfin, (zero_lt_iff hfin).mpr (hpos (by decide) (by decide))⟩

/-- What R112 asks of a slot's arguments. -/
def ParamOk (cfg : Cfg) (s : Slot) (arg : SlotParam) : Prop :=
  FrequencyOk cfg arg.f ∧ QualityOk arg.q ∧ (s = 0 ∨ 5 ≤ s.val → Fp.finite arg.g = true)

theorem paramOk_peqParam {snap : Snapshot} {cfg : Cfg} (s : Slot) (hsr : Fp.finite cfg.sr = true)
    (hnormal : Fp.le 0x0010000000000000#64 cfg.sr = true) {freq gain q : NUM} (hf : Fp.finite freq = true)
    (hg : Fp.finite gain = true) (hq : Fp.finite q = true) :
    ParamOk cfg s (peqParam snap cfg freq gain q) := by
  refine ⟨frequencyOk_clampF hsr hnormal hf, qualityOk_clamp hq, fun _ => ?_⟩
  simp only [peqParam]
  split
  · exact (clamp_bounds hg (lo := Const.peqGMin) (hi := Const.peqGMax) rfl rfl).1
  · rfl

/-- A snapshot's fields are finite one by one. -/
theorem snapshotFinite_iff (p : Snapshot) : snapshotFinite p = true ↔
    Fp.finite p.inputGain = true ∧ Fp.finite p.inputTrim = true ∧ Fp.finite p.drive = true ∧
    Fp.finite p.thickenAmount = true ∧ Fp.finite p.chugAmount = true ∧ Fp.finite p.bass = true ∧
    Fp.finite p.mid = true ∧ Fp.finite p.treble = true ∧ Fp.finite p.presence = true ∧
    Fp.finite p.peq0Freq = true ∧ Fp.finite p.peq0Gain = true ∧ Fp.finite p.peq0Q = true ∧
    Fp.finite p.peq1Freq = true ∧ Fp.finite p.peq1Gain = true ∧ Fp.finite p.peq1Q = true ∧
    Fp.finite p.peq2Freq = true ∧ Fp.finite p.peq2Gain = true ∧ Fp.finite p.peq2Q = true ∧
    Fp.finite p.peq3Freq = true ∧ Fp.finite p.peq3Gain = true ∧ Fp.finite p.peq3Q = true ∧
    Fp.finite p.outputGain = true ∧ Fp.finite p.masterVolume = true ∧ Fp.finite p.outputTrim = true := by
  simp [snapshotFinite]

/-- What a valid configuration is, field by field (00_scope.md R6). -/
theorem cfgValid_iff (c : Cfg) : cfgValid c = true ↔
    positive c.sr = true ∧ 1 ≤ c.blockLen ∧ positive c.kShape = true ∧ nonnegative c.rangeBass = true ∧
    nonnegative c.rangeMid = true ∧ nonnegative c.rangeTreble = true ∧
    nonnegative c.rangePresence = true ∧ positive c.qMid = true ∧ c.shapeMeetsR6 = true := by
  simp [cfgValid, and_assoc]

/-- Every slot's arguments, one slot at a time (R170 to R181). -/
theorem paramOk_slotParam {snap : Snapshot} {cfg : Cfg} (hsnap : snapshotFinite snap = true)
    (hcfg : cfgValid cfg = true) (hnormal : Fp.le 0x0010000000000000#64 cfg.sr = true) (s : Slot) :
    ParamOk cfg s (slotParam snap cfg s) := by
  obtain ⟨-, -, -, -, -, -, -, -, -, hf0, hg0, hq0, hf1, hg1, hq1, hf2, hg2, hq2, hf3, hg3, hq3, -⟩ :=
    (snapshotFinite_iff snap).mp hsnap
  obtain ⟨hsr, -, -, -, -, -, -, hqMid, -⟩ := (cfgValid_iff cfg).mp hcfg
  obtain ⟨hsr, -⟩ := (positive_iff _).mp hsr
  have hfixed : ∀ {f : NUM}, Fp.finite f = true → FrequencyOk cfg (clampF cfg f) :=
    fun hf => frequencyOk_clampF hsr hnormal hf
  have hband : ∀ {freq gain q : NUM}, Fp.finite freq = true → Fp.finite gain = true → Fp.finite q = true →
      ParamOk cfg s (peqParam snap cfg freq gain q) := fun hf hg hq => paramOk_peqParam s hsr hnormal hf hg hq
  have hone : QualityOk Const.one := ⟨rfl, by decide⟩
  have hlofi : QualityOk Const.lofiQ := ⟨rfl, by decide⟩
  have hflat : Fp.finite Const.zero = true := rfl
  match s with
  | 0 =>
    refine ⟨hfixed rfl, hone, fun _ => ?_⟩
    simp only [slotParam]
    split <;> rfl
  | 1 => exact ⟨hfixed rfl, hone, fun h => absurd h (by decide)⟩
  | 2 => exact ⟨hfixed rfl, (positive_iff _).mp hqMid, fun h => absurd h (by decide)⟩
  | 3 => exact ⟨hfixed rfl, hone, fun h => absurd h (by decide)⟩
  | 4 => exact ⟨hfixed rfl, hone, fun h => absurd h (by decide)⟩
  | 5 => exact hband hf0 hg0 hq0
  | 6 => exact hband hf1 hg1 hq1
  | 7 => exact hband hf2 hg2 hq2
  | 8 => exact hband hf3 hg3 hq3
  | 9 => exact ⟨hfixed rfl, hlofi, fun _ => hflat⟩
  | 10 => exact ⟨hfixed rfl, hlofi, fun _ => hflat⟩

/-- Settles O25: each slot's frequency is a `ClampF` and each Q positive. -/
theorem paramMeetsTheDesignersPreconditions : Obligations.ParamMeetsTheDesignersPreconditions := by
  unfold Obligations.ParamMeetsTheDesignersPreconditions
  intro snap cfg s hsnap hcfg hnormal
  obtain ⟨⟨hf, hf0, hf'⟩, ⟨hq, hq0⟩, hg⟩ := paramOk_slotParam hsnap hcfg hnormal s
  exact ⟨hf, hf0, hf', hq, hq0, hg⟩

/-! ### The table of slots (R171 to R184) -/

/-- At 44.1 kHz and 48 kHz the ceiling is 20000 Hz. -/
theorem fCeil_common {cfg : Cfg} (h : cfg.sr = 0x40E5888000000000#64 ∨ cfg.sr = 0x40E7700000000000#64) :
    fCeil cfg = Const.peqFMax := by
  rcases h with h | h <;> rw [fCeil, h] <;> decide +kernel

/-- Settles O26: every row by the definition; the two common rates by computing the ceiling. -/
theorem paramFollowsItsTable : Obligations.ParamFollowsItsTable := by
  unfold Obligations.ParamFollowsItsTable
  intro snap cfg
  refine ⟨rfl, fun _ => rfl, rfl, rfl, rfl, rfl, rfl, rfl, rfl, rfl, rfl, rfl, rfl, fun hsr => ?_⟩
  have hceil := fCeil_common hsr
  refine ⟨hceil, ?_⟩
  simp only [clampF, hceil]
  decide +kernel

/-- Settles O27: outside the four bands PARAM does not look at the PEQ, and in them a gain of 0 clamped to
±12 dB is 0. -/
theorem disabledPeqMatchesZeroGains : Obligations.DisabledPeqMatchesZeroGains := by
  unfold Obligations.DisabledPeqMatchesZeroGains
  intro snap cfg
  have hclamp : Fp.clamp Const.zero Const.peqGMin Const.peqGMax = Const.zero := by decide
  have hparam : ∀ s : Slot, slotParam { snap with peqEnabled := false } cfg s =
      slotParam { snap with
        peqEnabled := true, peq0Gain := Const.zero, peq1Gain := Const.zero, peq2Gain := Const.zero
        peq3Gain := Const.zero } cfg s := fun s => by
    match s with
    | 0 | 1 | 2 | 3 | 4 | 9 | 10 => rfl
    | 5 | 6 | 7 | 8 => simp [slotParam, peqParam, hclamp]
  simp only [snapshotCoefs, slotCoefs, hparam]

/-! ### The designer (R100 to R111) -/

/-- Settles O22: `Design` is its five formulas by definition. -/
theorem designFollowsTheCookbook : Obligations.DesignFollowsTheCookbook := by
  unfold Obligations.DesignFollowsTheCookbook
  exact fun _ _ _ _ _ => ⟨rfl, rfl, rfl, rfl, rfl⟩

/-- What the `DSGN` descriptors have in common: one set designed, `spc` moved on. -/
theorem exec_of_designOf {i : Instr} {slot : Slot} {type : FilterType} (h : designOf i = some (slot, type))
    (s : State) : exec i s = .next (designSlot slot type s).advance := by
  cases i <;> simp only [designOf, Option.some.injEq, Prod.mk.injEq, reduceCtorEq] at h <;>
    obtain ⟨rfl, rfl⟩ := h <;> rfl

/-- Settles O20: one lemma for the five types, each a `designSlot`. -/
theorem dsgnWritesOneCoefficientSet : Obligations.DsgnWritesOneCoefficientSet := by
  unfold Obligations.DsgnWritesOneCoefficientSet
  intro slot s arg wrote
  have h : ∀ {type : FilterType} {i : Instr}, designOf i = some (slot, type) → wrote type i := by
    intro type i hi
    refine ⟨_, exec_of_designOf hi s, rfl, ?_, fun other hother => ?_⟩
    · exact Vector.getElem_set_self _
    · exact Vector.getElem_set_ne slot.isLt other.isLt (fun e => hother (Fin.ext e.symm))
  exact ⟨h rfl, h rfl, h rfl, h rfl, h rfl⟩

/-! ### `Resolve` (R214) -/

theorem resolveNum_some (v default : NUM) :
    resolveNum (some v) default = if Fp.finite v then v else default := rfl

/-- With a finite default, a resolved field is finite. -/
theorem finite_resolveNum {default : NUM} (h : Fp.finite default = true) (field : Option NUM) :
    Fp.finite (resolveNum field default) = true := by
  cases field with
  | none => exact h
  | some v =>
    rw [resolveNum_some]
    split
    · next hv => exact hv
    · exact h

/-- Every resolved snapshot is finite, since every default is. -/
theorem snapshotFinite_resolve (m : SettingsMsg) : snapshotFinite (resolve m) = true := by
  have hdefault : snapshotFinite snapshotDefault = true := by decide
  rw [snapshotFinite_iff] at hdefault ⊢
  simp only [resolve, finite_resolveNum, hdefault, and_self]

theorem resolveNum_finite {v : NUM} (h : Fp.finite v = true) (default : NUM) :
    resolveNum (some v) default = v := by
  rw [resolveNum_some, if_pos h]

/-- A message that carries a whole finite snapshot resolves to it. -/
theorem resolve_fullMessage {snap : Snapshot} (h : snapshotFinite snap = true) :
    resolve (fullMessage snap) = snap := by
  rw [snapshotFinite_iff] at h
  simp only [resolve, fullMessage, resolveNum_finite, h]
  rfl

/-- Settles O29: the table by definition; finiteness and the round trip field by field. -/
theorem resolveKeepsFiniteFieldsAndDefaultsTheRest :
    Obligations.ResolveKeepsFiniteFieldsAndDefaultsTheRest := by
  unfold Obligations.ResolveKeepsFiniteFieldsAndDefaultsTheRest
  exact ⟨snapshotFinite_resolve, fun v default => ⟨rfl, resolveNum_some v default⟩,
    fun _ _ => ⟨rfl, rfl⟩, fun _ => resolve_fullMessage, resolve_empty, fun _ => rfl⟩

end Machine

end Sys2Proof
end

section
/-! PROOFS of the encoding family, second part (30_encoding.md R71 to R85): the decoder undoes the encoder,
and accepts exactly the legal descriptors and the well-formed messages. -/

namespace Sys2Proof

open Sys2Proof.Machine Sys2Proof.Laws

/-- Settles O1: each word decoded. -/
theorem writtenOutWordsDecode : Obligations.WrittenOutWordsDecode := by
  unfold Obligations.WrittenOutWordsDecode
  refine ⟨rfl, rfl, rfl, rfl, rfl, rfl, rfl, rfl, rfl, rfl, rfl, rfl, rfl, rfl, rfl, rfl, ?_, rfl, rfl, rfl⟩
  decide +kernel

/-! ### Fields of a descriptor -/

theorem formatS_idx (op idx : BitVec 4) (p : Pred) : (formatS op idx p).extractLsb' 8 4 = idx := by
  unfold formatS
  apply BitVec.eq_of_getLsbD_eq
  intro i hi
  simp only [BitVec.getLsbD_extractLsb', BitVec.getLsbD_append]
  interval_cases i <;> simp

theorem formatS_pred (op idx : BitVec 4) (p : Pred) : (formatS op idx p).extractLsb' 5 3 = encodePred p := by
  unfold formatS
  apply BitVec.eq_of_getLsbD_eq
  intro i hi
  simp only [BitVec.getLsbD_extractLsb', BitVec.getLsbD_append]
  interval_cases i <;> simp

theorem formatS_rsv (op idx : BitVec 4) (p : Pred) : (formatS op idx p).extractLsb' 0 5 = 0#5 := by
  unfold formatS
  apply BitVec.eq_of_getLsbD_eq
  intro i hi
  simp only [BitVec.getLsbD_extractLsb', BitVec.getLsbD_append]
  interval_cases i <;> simp

theorem formatD_idx (slot : Slot) (type : BitVec 8) :
    (formatD slot type).extractLsb' 8 4 = BitVec.ofNat 4 slot.val := by
  unfold formatD
  apply BitVec.eq_of_getLsbD_eq
  intro i hi
  simp only [BitVec.getLsbD_extractLsb', BitVec.getLsbD_append]
  interval_cases i <;> simp

theorem formatD_type (slot : Slot) (type : BitVec 8) : (formatD slot type).extractLsb' 0 8 = type := by
  unfold formatD
  apply BitVec.eq_of_getLsbD_eq
  intro i hi
  simp only [BitVec.getLsbD_extractLsb', BitVec.getLsbD_append]
  interval_cases i <;> simp

/-- A word whose low fields are those of format S is of format S. -/
theorem eq_formatS {w : Word16} {op idx : BitVec 4} {p : Pred} (hop : w.extractLsb' 12 4 = op)
    (hidx : w.extractLsb' 8 4 = idx) (hpred : w.extractLsb' 5 3 = encodePred p)
    (hrsv : w.extractLsb' 0 5 = 0#5) : w = formatS op idx p := by
  rw [formatS, ← hop, ← hidx, ← hpred, ← hrsv]
  apply BitVec.eq_of_getLsbD_eq
  intro i hi
  simp only [BitVec.getLsbD_extractLsb', BitVec.getLsbD_append]
  interval_cases i <;> simp

theorem eq_formatD {w : Word16} {slot : Slot} {type : BitVec 8} (hop : w.extractLsb' 12 4 = 0xD#4)
    (hidx : w.extractLsb' 8 4 = BitVec.ofNat 4 slot.val) (htype : w.extractLsb' 0 8 = type) :
    w = formatD slot type := by
  rw [formatD, ← hop, ← hidx, ← htype]
  apply BitVec.eq_of_getLsbD_eq
  intro i hi
  simp only [BitVec.getLsbD_extractLsb', BitVec.getLsbD_append]
  interval_cases i <;> simp

/-! ### The parts of the descriptor decoder -/

theorem decodePred_encodePred (p : Pred) : decodePred (encodePred p) = .ok p := by cases p <;> rfl

/-- The predicate codes are 0 to 4 (R74). -/
theorem decodePred_ok_iff (code : BitVec 3) (p : Pred) : decodePred code = .ok p ↔ code = encodePred p := by
  refine ⟨fun h => ?_, fun h => by rw [h, decodePred_encodePred]⟩
  unfold decodePred at h
  apply BitVec.eq_of_toNat_eq
  split at h <;> cases h <;> assumption

theorem exists_encodePred {code : BitVec 3} (h : code.toNat ≤ 4) : ∃ p, code = encodePred p := by
  have hcases : code = 0#3 ∨ code = 1#3 ∨ code = 2#3 ∨ code = 3#3 ∨ code = 4#3 := by bv_omega
  rcases hcases with rfl | rfl | rfl | rfl | rfl
  · exact ⟨.always, rfl⟩
  · exact ⟨.ncl, rfl⟩
  · exact ⟨.thk, rfl⟩
  · exact ⟨.chg, rfl⟩
  · exact ⟨.lofi, rfl⟩

theorem encodePred_le (p : Pred) : (encodePred p).toNat ≤ 4 := by cases p <;> decide

theorem decodeStagePred_ok_iff (w : Word16) (p : Pred) : decodeStagePred w = .ok p ↔
    w.extractLsb' 0 5 = 0#5 ∧ w.extractLsb' 5 3 = encodePred p := by
  unfold decodeStagePred
  split
  · next hrsv => rw [decodePred_ok_iff]; exact ⟨fun h => ⟨hrsv, h⟩, fun h => h.2⟩
  · next hrsv => exact iff_of_false (fun h => by cases h) (fun h => hrsv h.1)

theorem decodeSlot_ofNat (slot : Slot) : decodeSlot (BitVec.ofNat 4 slot.val) = .ok slot := by
  have hval : (BitVec.ofNat 4 slot.val).toNat = slot.val := by
    rw [BitVec.toNat_ofNat]
    omega
  have hlt : (BitVec.ofNat 4 slot.val).toNat < 11 := by omega
  rw [decodeSlot, dif_pos hlt]
  exact congrArg Except.ok (Fin.ext hval)

theorem of_decodeSlot {idx : BitVec 4} {slot : Slot} (h : decodeSlot idx = .ok slot) :
    idx = BitVec.ofNat 4 slot.val ∧ idx.toNat ≤ 10 := by
  unfold decodeSlot at h
  split at h
  · next hlt =>
    cases h
    exact ⟨BitVec.eq_of_toNat_eq (by simp), by omega⟩
  · cases h

theorem decodeStagePred_formatS (op idx : BitVec 4) (p : Pred) :
    decodeStagePred (formatS op idx p) = .ok p :=
  (decodeStagePred_ok_iff _ p).mpr ⟨formatS_rsv op idx p, formatS_pred op idx p⟩

theorem decodeStage_formatS (make : Pred → Instr) (op : BitVec 4) (p : Pred) :
    decodeStage make (formatS op 0#4 p) = .ok (make p) := by
  rw [decodeStage, if_pos (formatS_idx op 0#4 p), decodeStagePred_formatS]
  rfl

/-- A format S operation without a slot: the word is the operation's, the index 0 and some predicate. -/
theorem of_decodeStage_formatS {make : Pred → Instr} {w : Word16} {i : Instr}
    (h : decodeStage make w = .ok i) : ∃ p, i = make p ∧ w = formatS (w.extractLsb' 12 4) 0#4 p := by
  unfold decodeStage at h
  split at h
  · next hidx =>
    cases hp : decodeStagePred w with
    | error e => rw [hp] at h; cases h
    | ok p =>
      rw [hp] at h
      obtain ⟨hrsv, hpred⟩ := (decodeStagePred_ok_iff w p).mp hp
      exact ⟨p, (Except.ok.inj h).symm, eq_formatS rfl hidx hpred hrsv⟩
  · cases h

/-! ### Decoding what was encoded -/

/-- The rows of format S without a slot, each with its operation. -/
theorem decodeDescriptor_formatS {make : Pred → Instr} {op : BitVec 4}
    (h : ∀ w : Word16, w.extractLsb' 12 4 = op → decodeDescriptor w = decodeStage make w) (p : Pred) :
    decodeDescriptor (formatS op 0#4 p) = .ok (make p) := by
  rw [h _ (formatS_op op 0#4 p), decodeStage_formatS]

theorem decodeDescriptor_bq (slot : Slot) (p : Pred) :
    decodeDescriptor (formatS 0x6#4 (BitVec.ofNat 4 slot.val) p) = .ok (.bq slot p) := by
  unfold decodeDescriptor
  rw [formatS_op, formatS_idx, decodeSlot_ofNat, decodeStagePred_formatS]
  rfl

theorem decodeDescriptor_formatD (slot : Slot) (type : BitVec 8) :
    decodeDescriptor (formatD slot type) = .ok (designInstr slot type) := by
  unfold decodeDescriptor
  rw [formatD_op, formatD_idx, formatD_type, decodeSlot_ofNat]
  rfl

/-- A type code of 5 or more has no row of its own (R76). -/
theorem designInstr_other (slot : Slot) {type : BitVec 8} (h : 5 ≤ type.toNat) :
    designInstr slot type = .dsgnOther slot type := by
  unfold designInstr
  split
  case h_6 => rfl
  all_goals omega

/-! ### Fields of a settings message -/

/-- Bit `i` of the mask says whether field `i` is there (R80). -/
theorem testBit_presentMask (fields : List (Option Word64)) (i : Nat) :
    (presentMask fields).testBit i = (fields[i]?.join).isSome := by
  induction fields generalizing i with
  | nil => simp [presentMask]
  | cons field rest ih =>
    have hbit : presentMask (field :: rest) = 2 * presentMask rest + field.isSome.toNat := by
      cases field <;> simp [presentMask, Nat.add_comm]
    rw [hbit]
    cases i with
    | zero => cases field <;> simp [Nat.testBit_zero]
    | succ i => cases field <;> simp [Nat.testBit_succ, ih, Nat.mul_add_div]

/-- Reading the encoded fields gives them back: an absent one by its mask bit, a present one by its word. -/
theorem rawField_encoded {fields : List (Option Word64)} (hlen : fields.length ≤ 32) (i : Nat) :
    rawField (BitVec.ofNat 32 (presentMask fields)) (fields.map (·.getD 0#64)) i = fields[i]?.join := by
  unfold rawField
  rw [BitVec.getLsbD_ofNat, testBit_presentMask, List.getElem?_map]
  rcases Nat.lt_or_ge i 32 with hi | hi
  · rcases hf : fields[i]? with _ | _ | v <;> simp [hi]
  · rw [List.getElem?_eq_none (by omega)]
    simp

theorem boolOfWord_wordOfBool (b : Bool) : boolOfWord (wordOfBool b) = b := by cases b <;> rfl

theorem map_boolOfWord (field : Option Bool) : (field.map wordOfBool).map boolOfWord = field := by
  cases field <;> simp [boolOfWord_wordOfBool]

/-- The 32 raw fields, each put where it came from, are the message. -/
theorem settingsOfRaw_rawOfSettings (m : SettingsMsg) :
    settingsOfRaw (fun i => (rawOfSettings m)[i]?.join) = m := by
  simp only [settingsOfRaw, rawOfSettings, List.getElem?_cons_zero, List.getElem?_cons_succ,
    Option.join_some, map_boolOfWord]

/-- The three fields of an `UPDSET` header (R79, R80). -/
theorem header_zero (msgop : BitVec 8) (zero : BitVec 24) (present : BitVec 32) :
    (msgop ++ (zero ++ present) : BitVec 64).extractLsb' 32 24 = zero := by
  apply BitVec.eq_of_getLsbD_eq
  intro i hi
  simp only [BitVec.getLsbD_extractLsb', BitVec.getLsbD_append]
  interval_cases i <;> simp

theorem header_present (msgop : BitVec 8) (zero : BitVec 24) (present : BitVec 32) :
    (msgop ++ (zero ++ present) : BitVec 64).extractLsb' 0 32 = present := by
  apply BitVec.eq_of_getLsbD_eq
  intro i hi
  simp only [BitVec.getLsbD_extractLsb', BitVec.getLsbD_append]
  interval_cases i <;> simp

/-- An `UPDSET` header with 32 payload words reads as its fields (R80). -/
theorem decodeMessage_updset {header : Word64} {payload : List Word64}
    (hop : header.extractLsb' 56 8 = 0x01#8) (hzero : header.extractLsb' 32 24 = 0#24)
    (hlen : payload.length = 32) : decodeMessage (header :: payload) =
      .ok (.updset (settingsOfRaw (rawField (header.extractLsb' 0 32) payload))) := by
  simp [decodeMessage, hop, hzero, hlen]

theorem decodeMessage_encodeSettings (m : SettingsMsg) :
    decodeMessage (encodeSettings m) = .ok (.updset m) := by
  have hlen : (rawOfSettings m).length = 32 := rfl
  unfold encodeSettings
  rw [decodeMessage_updset (header_op _ _ _) (header_zero _ _ _) (by rw [List.length_map, hlen]),
    header_present, funext (rawField_encoded hlen.le), settingsOfRaw_rawOfSettings]

theorem decodeMessage_encodeMute (b : Bool) : decodeMessage [encodeMute b] = .ok (.setmute b) := by
  cases b <;> exact decodeMessage_setmute rfl rfl

/-- Settles O2: one case for each row, the descriptors by their fields, `UPDSET` by its raw fields, a signal
by definition. -/
theorem decodeOfEncodeGivesBackTheInstruction : Obligations.DecodeOfEncodeGivesBackTheInstruction := by
  unfold Obligations.DecodeOfEncodeGivesBackTheInstruction
  intro i hi
  have hstage : ∀ {make : Pred → Instr} {op : BitVec 4},
      (∀ w : Word16, w.extractLsb' 12 4 = op → decodeDescriptor w = decodeStage make w) → ∀ p : Pred,
      decode (.descriptor (formatS op 0#4 p)) = .ok (make p) := fun h p => decodeDescriptor_formatS h p
  cases i with
  | endPass => rfl
  | ldin p => exact hstage (fun w hw => by unfold decodeDescriptor; rw [hw]; rfl) p
  | preg p => exact hstage (fun w hw => by unfold decodeDescriptor; rw [hw]; rfl) p
  | shape p => exact hstage (fun w hw => by unfold decodeDescriptor; rw [hw]; rfl) p
  | thick p => exact hstage (fun w hw => by unfold decodeDescriptor; rw [hw]; rfl) p
  | chug p => exact hstage (fun w hw => by unfold decodeDescriptor; rw [hw]; rfl) p
  | bq slot p => exact decodeDescriptor_bq slot p
  | trim p => exact hstage (fun w hw => by unfold decodeDescriptor; rw [hw]; rfl) p
  | outg p => exact hstage (fun w hw => by unfold decodeDescriptor; rw [hw]; rfl) p
  | stout p => exact hstage (fun w hw => by unfold decodeDescriptor; rw [hw]; rfl) p
  | dsgnLowshelf slot => exact decodeDescriptor_formatD slot 0#8
  | dsgnHighshelf slot => exact decodeDescriptor_formatD slot 1#8
  | dsgnPeaking slot => exact decodeDescriptor_formatD slot 2#8
  | dsgnLowpass slot => exact decodeDescriptor_formatD slot 3#8
  | dsgnHighpass slot => exact decodeDescriptor_formatD slot 4#8
  | dsgnOther slot type =>
    have htype : 5 ≤ type.toNat := of_decide_eq_true hi
    exact (decodeDescriptor_formatD slot type).trans (congrArg Except.ok (designInstr_other slot htype))
  | updset m => exact decodeMessage_encodeSettings m
  | setmute b => exact decodeMessage_encodeMute b
  | connect cfg => rfl
  | process ins out0 out1 => rfl
  | disconnect => rfl

/-! ### Legal descriptors (R83) -/

/-- A format S word of an operation without a slot is legal. -/
theorem legalDescriptor_formatS {op : BitVec 4} (h : 1 ≤ op.toNat ∧ op.toNat ≤ 5 ∨ 7 ≤ op.toNat ∧ op.toNat ≤ 9)
    (p : Pred) : legalDescriptor (formatS op 0#4 p) := by
  unfold legalDescriptor
  simp only [formatS_op, formatS_idx, formatS_pred, formatS_rsv]
  exact .inr (.inl ⟨h, rfl, encodePred_le p, rfl⟩)

/-- What a designer word decodes to encodes to it, and is well formed. -/
theorem encode_designInstr (slot : Slot) (type : BitVec 8) :
    encode (designInstr slot type) = .descriptor (formatD slot type) ∧
      (designInstr slot type).wellFormed = true := by
  have hcode : ∀ {n : Nat} (hn : n < 256), type.toNat = n → type = BitVec.ofNat 8 n := fun hn h =>
    BitVec.eq_of_toNat_eq (by rw [h, BitVec.toNat_ofNat, Nat.mod_eq_of_lt hn])
  rcases Nat.lt_or_ge type.toNat 5 with hlt | hge
  · have hcases : type.toNat = 0 ∨ type.toNat = 1 ∨ type.toNat = 2 ∨ type.toNat = 3 ∨ type.toNat = 4 := by
      omega
    rcases hcases with h | h | h | h | h <;> rw [hcode (by omega) h] <;> exact ⟨rfl, rfl⟩
  · rw [designInstr_other slot hge]
    exact ⟨rfl, decide_eq_true hge⟩

/-- What a word decodes to: the word is legal, encodes it, and it is well formed. -/
theorem of_decodeDescriptor {w : Word16} {i : Instr} (h : decodeDescriptor w = .ok i) :
    legalDescriptor w ∧ encode i = .descriptor w ∧ i.wellFormed = true := by
  have hstage : ∀ {make : Pred → Instr} {op : BitVec 4}, (w.extractLsb' 12 4).toNat = op.toNat →
      (1 ≤ op.toNat ∧ op.toNat ≤ 5 ∨ 7 ≤ op.toNat ∧ op.toNat ≤ 9) →
      (∀ p, encode (make p) = .descriptor (formatS op 0#4 p) ∧ (make p).wellFormed = true) →
      decodeStage make w = .ok i → legalDescriptor w ∧ encode i = .descriptor w ∧ i.wellFormed = true := by
    intro make op hop hrange hmake hdecode
    obtain ⟨p, rfl, hw⟩ := of_decodeStage_formatS hdecode
    rw [BitVec.eq_of_toNat_eq hop] at hw
    rw [hw]
    exact ⟨legalDescriptor_formatS hrange p, hmake p⟩
  unfold decodeDescriptor at h
  split at h
  case h_1 =>
    split at h
    · next hw => cases h; exact ⟨.inl hw, by rw [hw]; rfl, rfl⟩
    · cases h
  case h_2 hop => exact hstage (op := 0x1#4) hop (by decide) (fun _ => ⟨rfl, rfl⟩) h
  case h_3 hop => exact hstage (op := 0x2#4) hop (by decide) (fun _ => ⟨rfl, rfl⟩) h
  case h_4 hop => exact hstage (op := 0x3#4) hop (by decide) (fun _ => ⟨rfl, rfl⟩) h
  case h_5 hop => exact hstage (op := 0x4#4) hop (by decide) (fun _ => ⟨rfl, rfl⟩) h
  case h_6 hop => exact hstage (op := 0x5#4) hop (by decide) (fun _ => ⟨rfl, rfl⟩) h
  case h_7 hop =>
    cases hs : decodeSlot (w.extractLsb' 8 4) with
    | error e => rw [hs] at h; cases h
    | ok slot =>
      cases hp : decodeStagePred w with
      | error e => rw [hs, hp] at h; cases h
      | ok p =>
        rw [hs, hp] at h
        obtain ⟨hslot, hle⟩ := of_decodeSlot hs
        obtain ⟨hrsv, hpred⟩ := (decodeStagePred_ok_iff w p).mp hp
        have hop' : w.extractLsb' 12 4 = 0x6#4 := BitVec.eq_of_toNat_eq hop
        obtain rfl : Instr.bq slot p = i := Except.ok.inj h
        refine ⟨.inr (.inr (.inl ⟨hop, hle, ?_, ?_⟩)), ?_, rfl⟩
        · rw [hpred]
          exact encodePred_le p
        · rw [hrsv]
          rfl
        · exact congrArg Code.descriptor (eq_formatS hop' hslot hpred hrsv).symm
  case h_8 hop => exact hstage (op := 0x7#4) hop (by decide) (fun _ => ⟨rfl, rfl⟩) h
  case h_9 hop => exact hstage (op := 0x8#4) hop (by decide) (fun _ => ⟨rfl, rfl⟩) h
  case h_10 hop => exact hstage (op := 0x9#4) hop (by decide) (fun _ => ⟨rfl, rfl⟩) h
  case h_11 hop =>
    cases hs : decodeSlot (w.extractLsb' 8 4) with
    | error e => rw [hs] at h; cases h
    | ok slot =>
      rw [hs] at h
      obtain ⟨hslot, hle⟩ := of_decodeSlot hs
      have hop' : w.extractLsb' 12 4 = 0xD#4 := BitVec.eq_of_toNat_eq hop
      obtain rfl : designInstr slot (w.extractLsb' 0 8) = i := Except.ok.inj h
      obtain ⟨hencode, hwf⟩ := encode_designInstr slot (w.extractLsb' 0 8)
      rw [← eq_formatD hop' hslot rfl] at hencode
      exact ⟨.inr (.inr (.inr ⟨hop, hle⟩)), hencode, hwf⟩
  case h_12 => cases h

/-- The eight operations of format S without a slot share one decoder. -/
theorem decodeDescriptor_stage {w : Word16}
    (h : 1 ≤ (w.extractLsb' 12 4).toNat ∧ (w.extractLsb' 12 4).toNat ≤ 5 ∨
      7 ≤ (w.extractLsb' 12 4).toNat ∧ (w.extractLsb' 12 4).toNat ≤ 9) :
    ∃ make, decodeDescriptor w = decodeStage make w := by
  unfold decodeDescriptor
  have hcases : ∀ n : Nat, 1 ≤ n ∧ n ≤ 5 ∨ 7 ≤ n ∧ n ≤ 9 →
      n = 1 ∨ n = 2 ∨ n = 3 ∨ n = 4 ∨ n = 5 ∨ n = 7 ∨ n = 8 ∨ n = 9 := fun n hn => by omega
  rcases hcases _ h with hop | hop | hop | hop | hop | hop | hop | hop <;> rw [hop] <;> exact ⟨_, rfl⟩

/-- Every legal word is one that the encoder makes. -/
theorem exists_of_legalDescriptor {w : Word16} (h : legalDescriptor w) : ∃ i, decodeDescriptor w = .ok i := by
  rcases h with rfl | ⟨hop, hidx, hpred, hrsv⟩ | ⟨hop, hidx, hpred, hrsv⟩ | ⟨hop, hidx⟩
  · exact ⟨.endPass, rfl⟩
  · obtain ⟨p, hp⟩ := exists_encodePred hpred
    obtain ⟨make, hmake⟩ := decodeDescriptor_stage hop
    have hw := eq_formatS rfl (BitVec.eq_of_toNat_eq hidx : _ = 0#4) hp (BitVec.eq_of_toNat_eq hrsv)
    refine ⟨make p, ?_⟩
    rw [hmake, hw, decodeStage_formatS]
  · obtain ⟨p, hp⟩ := exists_encodePred hpred
    have hslot : w.extractLsb' 8 4 = BitVec.ofNat 4 (⟨_, Nat.lt_succ_of_le hidx⟩ : Slot).val :=
      BitVec.eq_of_toNat_eq (by simp)
    have hw := eq_formatS (BitVec.eq_of_toNat_eq hop : _ = 0x6#4) hslot hp (BitVec.eq_of_toNat_eq hrsv)
    rw [hw]
    exact ⟨_, decodeDescriptor_bq _ p⟩
  · have hslot : w.extractLsb' 8 4 = BitVec.ofNat 4 (⟨_, Nat.lt_succ_of_le hidx⟩ : Slot).val :=
      BitVec.eq_of_toNat_eq (by simp)
    rw [eq_formatD (BitVec.eq_of_toNat_eq hop : _ = 0xD#4) hslot rfl]
    exact ⟨_, decodeDescriptor_formatD _ _⟩

/-- Settles O3: a decoded word is legal, encodes back and is well formed; a legal word decodes. -/
theorem legalDescriptorsHaveOneMeaning : Obligations.LegalDescriptorsHaveOneMeaning := by
  unfold Obligations.LegalDescriptorsHaveOneMeaning
  refine fun w => ⟨⟨fun ⟨i, hi⟩ => ?_, exists_of_legalDescriptor⟩, fun i hi => ?_⟩
  · exact (of_decodeDescriptor hi).1
  · exact (of_decodeDescriptor hi).2

/-! ### Well-formed messages (R84) -/

/-- A message that decodes is of one of the two well-formed shapes. -/
theorem of_decodeMessage {header : Word64} {payload : List Word64} {i : Instr}
    (h : decodeMessage (header :: payload) = .ok i) :
    ((header.extractLsb' 56 8).toNat = 1 ∧ (header.extractLsb' 32 24).toNat = 0 ∧ payload.length = 32) ∨
      ((header.extractLsb' 56 8).toNat = 2 ∧ (header.extractLsb' 1 55).toNat = 0 ∧ payload = []) := by
  simp only [decodeMessage] at h
  split at h
  next hop =>
    split at h
    next hzero =>
      split at h
      next hlen => exact .inl ⟨hop, by rw [hzero]; rfl, hlen⟩
      next => cases h
    next => cases h
  next hop =>
    split at h
    next hzero =>
      split at h
      next hlen => exact .inr ⟨hop, by rw [hzero]; rfl, List.length_eq_zero_iff.mp hlen⟩
      next => cases h
    next => cases h
  next => cases h

/-- Settles O4: `of_decodeMessage` one way, the two readers the other; bit `i` of the mask is bit `i` of the
header. -/
theorem messagesAreExactlyTheWellFormedOnes : Obligations.MessagesAreExactlyTheWellFormedOnes := by
  unfold Obligations.MessagesAreExactlyTheWellFormedOnes
  refine ⟨fun words => ⟨fun ⟨i, hi⟩ => ?_, ?_⟩, fun header hop hzero => ?_, ?_⟩
  · cases words with
    | nil => cases hi
    | cons header payload => exact ⟨header, payload, rfl, of_decodeMessage hi⟩
  · rintro ⟨header, payload, rfl, ⟨hop, hzero, hlen⟩ | ⟨hop, hzero, rfl⟩⟩
    · exact ⟨_, decodeMessage_updset (BitVec.eq_of_toNat_eq hop) (BitVec.eq_of_toNat_eq hzero) hlen⟩
    · exact ⟨_, decodeMessage_setmute (BitVec.eq_of_toNat_eq hop) (BitVec.eq_of_toNat_eq hzero)⟩
  · exact decodeMessage_setmute (BitVec.eq_of_toNat_eq hop) (BitVec.eq_of_toNat_eq hzero)
  · intro header payload hop hzero hlen num bool
    have hnum : ∀ i, i < 32 → rawField (header.extractLsb' 0 32) payload i = num i := fun i hi => by
      simp [rawField, num, hi]
    rw [decodeMessage_updset (BitVec.eq_of_toNat_eq hop) (BitVec.eq_of_toNat_eq hzero) hlen]
    simp only [settingsOfRaw, hnum, Nat.reduceLT]
    rfl

end Sys2Proof
end

section
/-! PROOFS of the block processor family, second part (46_block_processor.md R206 to R212): the stage
operations one by one, what they leave alone, and who writes which state file. -/

namespace Sys2Proof

namespace Machine

/-! ### The stage operations as one family -/

/-- The instruction is a stage descriptor with this predicate and this operation (30_encoding.md R71). -/
inductive IsStage : Instr → Pred → (State → State) → Prop
  | ldin (p : Pred) : IsStage (.ldin p) p opLdin
  | preg (p : Pred) : IsStage (.preg p) p opPreg
  | shape (p : Pred) : IsStage (.shape p) p opShape
  | thick (p : Pred) : IsStage (.thick p) p opThick
  | chug (p : Pred) : IsStage (.chug p) p opChug
  | bq (slot : Slot) (p : Pred) : IsStage (.bq slot p) p (opBq slot)
  | trim (p : Pred) : IsStage (.trim p) p opTrim
  | outg (p : Pred) : IsStage (.outg p) p opOutg
  | stout (p : Pred) : IsStage (.stout p) p opStout

theorem IsStage.exec {i : Instr} {p : Pred} {op : State → State} (h : IsStage i p op) (s : State) :
    exec i s = .next (staged p op s) := by cases h <;> rfl

theorem IsStage.stagePred {i : Instr} {p : Pred} {op : State → State} (h : IsStage i p op) :
    stagePred i = some p := by cases h <;> rfl

theorem IsStage.designOf {i : Instr} {p : Pred} {op : State → State} (h : IsStage i p op) :
    designOf i = none := by cases h <;> rfl

theorem exists_isStage {i : Instr} {p : Pred} (h : stagePred i = some p) : ∃ op, IsStage i p op := by
  cases i <;> cases h <;> exact ⟨_, by constructor⟩

theorem stagePred_of_designOf {i : Instr} {d : Slot × FilterType} (h : designOf i = some d) :
    stagePred i = none := by
  cases i <;> simp only [designOf, reduceCtorEq] at h <;> rfl

/-- A descriptor but END is a stage operation or a `DSGN`. -/
theorem advances_cases {i : Instr} (h : advances i = true) :
    (∃ p op, IsStage i p op) ∨ ∃ slot type, designOf i = some (slot, type) := by
  rw [advances, Bool.or_eq_true] at h
  rcases h with hstage | hdesign
  · obtain ⟨p, hp⟩ := Option.isSome_iff_exists.mp hstage
    exact .inl ⟨p, exists_isStage hp⟩
  · obtain ⟨⟨slot, type⟩, hd⟩ := Option.isSome_iff_exists.mp hdesign
    exact .inr ⟨slot, type, hd⟩

/-! ### What each operation writes -/

/-- `LDIN` writes the accumulator (R209). -/
theorem opLdin_eq (s : State) : opLdin s = s.setAcc (opLdin s).acc := by
  unfold opLdin
  split <;> rfl

theorem opOutg_eq (s : State) : opOutg s = s.setAcc (outgResult s) := congrFun opOutg_eq_setAcc s

theorem opThick_chans (s : State) :
    (opThick s).chans = (s.setChan { s.chan with th := thickenStep s.chan.th s.acc }).chans := rfl

theorem opChug_chans (s : State) :
    (opChug s).chans = (s.setChan { s.chan with ch := chugStep s.chan.ch s.acc }).chans := rfl

theorem opBq_chans (slot : Slot) (s : State) :
    (opBq slot s).chans = (s.setFilter slot (biquadShift s.chan.fs[slot] s.acc
      (biquadOut s.coef[slot] s.chan.fs[slot] s.acc))).chans := rfl

/-- What a stage operation leaves alone: all but the accumulator, the bundles and memory. -/
theorem IsStage.frame {i : Instr} {p : Pred} {op : State → State} (h : IsStage i p op) (s : State) :
    op s = { s with acc := (op s).acc, chans := (op s).chans, mem := (op s).mem } := by
  cases h with
  | ldin => rw [opLdin_eq]; rfl
  | outg => rw [opOutg_eq]; rfl
  | preg | shape | thick | chug | bq | trim | stout => rfl

/-- Only `STOUT` writes memory (R212). -/
theorem IsStage.mem {i : Instr} {p : Pred} {op : State → State} (h : IsStage i p op)
    (hstout : ∀ p, i ≠ .stout p) (s : State) : (op s).mem = s.mem := by
  cases h with
  | ldin => rw [opLdin_eq]; rfl
  | outg => rw [opOutg_eq]; rfl
  | stout => exact absurd rfl (hstout p)
  | preg | shape | thick | chug | bq | trim => rfl

/-- Only `BQ`, `THICK` and `CHUG` write a bundle. -/
theorem IsStage.chans {i : Instr} {p : Pred} {op : State → State} (h : IsStage i p op)
    (hbq : ∀ slot p, i ≠ .bq slot p) (hthick : ∀ p, i ≠ .thick p) (hchug : ∀ p, i ≠ .chug p) (s : State) :
    (op s).chans = s.chans := by
  cases h with
  | ldin => rw [opLdin_eq]; rfl
  | outg => rw [opOutg_eq]; rfl
  | bq slot => exact absurd rfl (hbq slot p)
  | thick => exact absurd rfl (hthick p)
  | chug => exact absurd rfl (hchug p)
  | preg | shape | trim | stout => rfl

/-- A write to the current bundle that keeps a part of it keeps that part everywhere. -/
theorem State.setChan_part {α : Type} (part : Channel → α) (s : State) (b : Channel)
    (h : part b = part s.chan) (c : Chan) : part (s.setChan b).chans[c] = part s.chans[c] := by
  by_cases hc : c = s.cc
  · subst hc
    have hself : (s.setChan b).chans[s.cc] = b := s.setChan_chan b
    rw [hself]
    exact h
  · rw [s.setChan_other b c hc]

/-- Only `BQ` writes a filter state (41_biquad.md R124). -/
theorem IsStage.fs {i : Instr} {p : Pred} {op : State → State} (h : IsStage i p op)
    (hbq : ∀ slot p, i ≠ .bq slot p) (s : State) (c : Chan) : (op s).chans[c].fs = s.chans[c].fs := by
  cases h with
  | bq slot => exact absurd rfl (hbq slot p)
  | thick => rw [opThick_chans]; exact s.setChan_part Channel.fs _ (by rfl) c
  | chug => rw [opChug_chans]; exact s.setChan_part Channel.fs _ (by rfl) c
  | ldin => rw [opLdin_eq]; rfl
  | outg => rw [opOutg_eq]; rfl
  | preg | shape | trim | stout => rfl

/-- Only `THICK` writes a Thicken tracker (10_state.md R25). -/
theorem IsStage.th {i : Instr} {p : Pred} {op : State → State} (h : IsStage i p op)
    (hthick : ∀ p, i ≠ .thick p) (s : State) (c : Chan) : (op s).chans[c].th = s.chans[c].th := by
  cases h with
  | thick => exact absurd rfl (hthick p)
  | bq slot => rw [opBq_chans]; exact s.setChan_part Channel.th _ (by rfl) c
  | chug => rw [opChug_chans]; exact s.setChan_part Channel.th _ (by rfl) c
  | ldin => rw [opLdin_eq]; rfl
  | outg => rw [opOutg_eq]; rfl
  | preg | shape | trim | stout => rfl

/-- Only `CHUG` writes a chug tracker (10_state.md R26). -/
theorem IsStage.ch {i : Instr} {p : Pred} {op : State → State} (h : IsStage i p op)
    (hchug : ∀ p, i ≠ .chug p) (s : State) (c : Chan) : (op s).chans[c].ch = s.chans[c].ch := by
  cases h with
  | chug => exact absurd rfl (hchug p)
  | bq slot => rw [opBq_chans]; exact s.setChan_part Channel.ch _ (by rfl) c
  | thick => rw [opThick_chans]; exact s.setChan_part Channel.ch _ (by rfl) c
  | ldin => rw [opLdin_eq]; rfl
  | outg => rw [opOutg_eq]; rfl
  | preg | shape | trim | stout => rfl

/-- No stage operation writes the other channel's bundle (R206). -/
theorem IsStage.other {i : Instr} {p : Pred} {op : State → State} (h : IsStage i p op) (s : State) {c : Chan}
    (hc : c ≠ s.cc) : (op s).chans[c] = s.chans[c] := by
  cases h with
  | bq slot => exact s.setFilter_other slot _ hc
  | thick => exact s.setChan_other _ c hc
  | chug => exact s.setChan_other _ c hc
  | ldin => rw [opLdin_eq]; rfl
  | outg => rw [opOutg_eq]; rfl
  | preg | shape | trim | stout => rfl

/-- A stage descriptor, either way of its predicate: what it leaves alone. -/
theorem IsStage.staged_frame {i : Instr} {p : Pred} {op : State → State} (h : IsStage i p op) (s : State) :
    staged p op s = { s with
      acc := (staged p op s).acc, chans := (staged p op s).chans, mem := (staged p op s).mem
      spc := s.spc + 1 } := by
  obtain ⟨-, hs⟩ | ⟨-, hs⟩ := staged_cases p op s
  · rw [hs]
    conv_lhs => rw [h.frame s]
    rfl
  · rw [hs]
    rfl

/-- What an operation keeps, other than `spc`, its stage keeps. -/
theorem staged_keeps {α : Type} (read : State → α) (hread : ∀ t : State, read t.advance = read t)
    (p : Pred) {op : State → State} {s : State} (h : read (op s) = read s) :
    read (staged p op s) = read s := by
  obtain ⟨-, hs⟩ | ⟨-, hs⟩ := staged_cases p op s <;> rw [hs, hread]
  exact h

/-- A stage commutes with a change its operation commutes with and `SNAP` and `spc` have no part in. -/
theorem staged_comm {u : State → State} (hadvance : ∀ t, (u t).advance = u t.advance) (p : Pred)
    {op : State → State} {s : State} (hsnap : (u s).snap = s.snap) (hop : op (u s) = u (op s)) :
    staged p op (u s) = u (staged p op s) := by
  obtain ⟨hp, hs⟩ | ⟨hp, hs⟩ := staged_cases p op s <;> rw [← hsnap] at hp
  · rw [hs, staged_of_holds hp, hop, hadvance]
  · rw [hs, staged_of_fails hp, hadvance]

/-! ### `LDIN`, `SHAPE`, `CHUG`, `STOUT`, `END` (R209, R212, R208) -/

theorem exec_ldin (p : Pred) (s : State) : exec (.ldin p) s = .next (staged p opLdin s) := rfl

/-- Settles O10: `LDIN` reads one of the three places of `inputAddr_cases`. -/
theorem ldinLoadsTheInputSample : Obligations.LdinLoadsTheInputSample := by
  unfold Obligations.LdinLoadsTheInputSample
  refine fun p s => ⟨fun hp => ?_, fun hp => ?_⟩
  · rw [exec_ldin, staged_of_fails hp]
    rfl
  · rw [exec_ldin, staged_of_holds hp]
    have hsome : ∀ {addr : Nat}, s.inputAddr = some addr → opLdin s = s.setAcc (readNum s.mem addr) :=
      fun haddr => by rw [opLdin, haddr]
    obtain ⟨hown, haddr⟩ | ⟨hnone, hfirst, haddr⟩ | ⟨hempty, haddr⟩ := inputAddr_cases s
    · rw [hsome haddr]
      refine ⟨fun _ => rfl, fun hle => absurd hown (Nat.not_lt.mpr hle), fun hnil => ?_⟩
      rw [hnil] at hown
      exact absurd hown (Nat.not_lt_zero _)
    · rw [hsome haddr]
      refine ⟨fun hlt => absurd hlt (Nat.not_lt.mpr hnone), fun _ _ => rfl, fun hnil => ?_⟩
      rw [hnil] at hfirst
      exact absurd hfirst (Nat.not_lt_zero _)
    · have hlen : s.ins.length = 0 := by rw [hempty]; rfl
      refine ⟨fun hlt => absurd hlt (by omega), fun _ hlt => absurd hlt (by omega), fun _ => ?_⟩
      rw [opLdin, haddr]
      rfl

theorem exec_shape (p : Pred) (s : State) : exec (.shape p) s = .next (staged p opShape s) := rfl

/-- Settles O16: a stage that sets the accumulator to the shaper's value, which at amount 0 is the sample. -/
theorem shapeFollowsItsFormula : Obligations.ShapeFollowsItsFormula := by
  unfold Obligations.ShapeFollowsItsFormula
  intro p s
  rw [exec_shape]
  refine (congrArg _ (staged_setAcc p (fun s => shaper s.cfg.kShape s.acc s.amount) s)).trans ?_
  cases hp : predHolds s.snap p
  · simp
  · cases hz : Fp.eq s.amount Const.zero with
    | true => simp [shaper, hz, show Fp.eq s.amount 0#64 = true from hz]
    | false =>
      simp only [shaper, hz, show Fp.eq s.amount 0#64 = false from hz, and_self, if_true,
        Bool.false_eq_true, if_false]
      rfl

theorem exec_chug (p : Pred) (s : State) : exec (.chug p) s = .next (staged p opChug s) := rfl

/-- Settles O18: the envelope, then the gain on it; either way of the predicate by definition. -/
theorem chugFollowsItsFormulas : Obligations.ChugFollowsItsFormulas := by
  unfold Obligations.ChugFollowsItsFormulas
  intro p s env transient gain
  rw [exec_chug]
  refine ⟨fun hp => ?_, fun hp => ?_⟩
  · rw [staged_of_fails hp]
    rfl
  · rw [staged_of_holds hp]
    rfl

theorem exec_stout (p : Pred) (s : State) : exec (.stout p) s = .next (staged p opStout s) := rfl

/-- Settles O13: an executed `STOUT` is one stored NUM, whose laws are those of memory. -/
theorem stoutWritesOneSample : Obligations.StoutWritesOneSample := by
  unfold Obligations.StoutWritesOneSample
  intro p s hwf
  obtain ⟨hp, hs⟩ | ⟨hp, hs⟩ := staged_cases p opStout s
  · refine ⟨writeNum s.mem (sampleAddr s.outs[s.cc] s.nn) s.acc, ?_, writeNum_wf hwf _ _, ?_, ?_, ?_⟩
    · rw [exec_stout, hs]
      rfl
    · exact fun hfalse => absurd (hp.symm.trans hfalse) (by decide)
    · exact fun _ => readNum_writeNum hwf _ _
    · exact fun addr haddr => readByte_writeNum_other hwf _ _ addr haddr
  · refine ⟨s.mem, ?_, hwf, fun _ => rfl, ?_, fun _ _ => rfl⟩
    · rw [exec_stout, hs]
      rfl
    · exact fun htrue => absurd (hp.symm.trans htrue) (by decide)

theorem exec_endPass (s : State) : exec .endPass s = .next s.endFrame := rfl

/-- Settles O14: the three ways on of `endFrame_cases`, told apart by the frame and the channel. -/
theorem endMovesToTheNextFrameOrEndsTheBlock : Obligations.EndMovesToTheNextFrameOrEndsTheBlock := by
  unfold Obligations.EndMovesToTheNextFrameOrEndsTheBlock
  intro s
  rw [exec_endPass]
  obtain ⟨hframe, heq⟩ | ⟨hlast, hcc, heq⟩ | ⟨hlast, hcc, heq⟩ := endFrame_cases s <;> rw [heq]
  · exact ⟨fun _ => rfl, fun h => by omega, fun h => by omega⟩
  · exact ⟨fun h => by omega, fun _ _ => rfl, fun _ h => absurd (hcc.symm.trans h) (by decide)⟩
  · exact ⟨fun h => by omega, fun _ h => absurd (hcc.symm.trans h) (by decide), fun _ _ => rfl⟩

/-! ### What a descriptor leaves alone -/

/-- Settles O37: the predicates by definition; a stage by its frame and by what each operation keeps; a
`DSGN` by its one coefficient set. -/
theorem descriptorsLeaveTheRestAlone : Obligations.DescriptorsLeaveTheRestAlone := by
  unfold Obligations.DescriptorsLeaveTheRestAlone
  refine ⟨fun snap => ?_, fun i p s hi hp => ?_, fun i s hi => ?_⟩
  · simp [predHolds]
  · obtain ⟨op, h⟩ := exists_isStage hi
    rw [h.exec, staged_of_fails hp]
    rfl
  · rcases advances_cases hi with ⟨p, op, h⟩ | ⟨slot, type, hd⟩
    · have hframe := h.staged_frame s
      have hother : ∀ c : Chan, c ≠ s.cc → (staged p op s).chans[c] = s.chans[c] := fun c hc =>
        staged_keeps (fun t => t.chans[c]) (fun _ => rfl) p (h.other s hc)
      have hmem : (∀ p, i ≠ .stout p) → (staged p op s).mem = s.mem := fun hstout =>
        staged_keeps State.mem (fun _ => rfl) p (h.mem hstout s)
      refine ⟨_, h.exec s, ?_⟩
      rw [h.designOf]
      generalize staged p op s = t at *
      refine ⟨?_, ?_, ?_, ?_, ?_, ?_, ?_, ?_, ?_, ?_, ?_, ?_, ?_, ?_, ?_, ?_, ?_, hother, fun _ => ?_,
        fun hsome => absurd hsome Bool.false_ne_true, fun hstout addr => by rw [hmem hstout]⟩ <;>
        rw [hframe]
    · refine ⟨_, exec_of_designOf hd s, rfl, rfl, rfl, rfl, rfl, rfl, rfl, rfl, rfl, rfl, rfl, rfl, rfl, rfl,
        rfl, rfl, rfl, fun _ _ => rfl, fun hstage => ?_, fun _ => ⟨rfl, rfl⟩, fun _ _ => rfl⟩
      rw [stagePred_of_designOf hd] at hstage
      exact absurd hstage Bool.false_ne_true

/-! ### Who writes the state files -/

theorem exec_updset_next {m : SettingsMsg} {s t : State} (h : exec (.updset m) s = .next t) :
    s.conn = true ∧ t = { s with pendSnap := some m } := by
  change execUpdset m s = .next t at h
  unfold execUpdset at h
  split_ifs at h with hconn
  exact ⟨hconn, (Host.Outcome.next.inj h).symm⟩

theorem exec_setmute_next {b : Bool} {s t : State} (h : exec (.setmute b) s = .next t) :
    s.conn = true ∧ t = { s with pendMute := some b } := by
  change execSetmute b s = .next t at h
  unfold execSetmute at h
  split_ifs at h with hconn
  exact ⟨hconn, (Host.Outcome.next.inj h).symm⟩

/-- What instructions other than descriptors, CONNECT and DISCONNECT leave of the state files. -/
theorem execProcess_files {ins : List Nat} {out0 out1 : Nat} {s t : State}
    (h : exec (.process ins out0 out1) s = .next t) : t.cfg = s.cfg ∧ t.chainRom = s.chainRom ∧
      t.designerRom = s.designerRom ∧ t.chans = s.chans := by
  change execProcess ins out0 out1 s = .next t at h
  unfold execProcess at h
  split_ifs at h
  rw [toOutcome_next] at h
  cases hb : boundary s with
  | error r => rw [hb] at h; cases h
  | ok u =>
    rw [hb] at h
    cases h
    rw [boundary_ok hb]
    exact ⟨rfl, rfl, rfl, rfl⟩

/-- The classes of instructions (30_encoding.md sections 2 to 4, 46_block_processor.md section 2). -/
theorem instr_cases (i : Instr) :
    (∃ p op, IsStage i p op) ∨ (∃ slot type, designOf i = some (slot, type)) ∨ i = .endPass ∨
    (∃ m, i = .updset m) ∨ (∃ b, i = .setmute b) ∨ (∃ cfg, i = .connect cfg) ∨
    (∃ ins out0 out1, i = .process ins out0 out1) ∨ i = .disconnect := by
  cases h : advances i with
  | true => exact (advances_cases h).elim .inl (fun hd => .inr (.inl hd))
  | false =>
    refine .inr (.inr ?_)
    cases i with
    | endPass => exact .inl rfl
    | updset m => exact .inr (.inl ⟨m, rfl⟩)
    | setmute b => exact .inr (.inr (.inl ⟨b, rfl⟩))
    | connect cfg => exact .inr (.inr (.inr (.inl ⟨cfg, rfl⟩)))
    | process ins out0 out1 => exact .inr (.inr (.inr (.inr (.inl ⟨ins, out0, out1, rfl⟩))))
    | disconnect => exact .inr (.inr (.inr (.inr (.inr rfl))))
    | ldin | preg | shape | thick | chug | bq | trim | outg | stout => cases h
    | dsgnLowshelf | dsgnHighshelf | dsgnPeaking | dsgnLowpass | dsgnHighpass | dsgnOther => cases h

/-- Settles O38: by the class of the instruction. -/
theorem stateFilesAreWrittenByTheirOwnersOnly : Obligations.StateFilesAreWrittenByTheirOwnersOnly := by
  unfold Obligations.StateFilesAreWrittenByTheirOwnersOnly
  intro i s t h hconnect hdisconnect
  rcases instr_cases i with ⟨p, op, hi⟩ | ⟨slot, type, hd⟩ | rfl | ⟨m, rfl⟩ | ⟨b, rfl⟩ | ⟨cfg, rfl⟩ |
    ⟨ins, out0, out1, rfl⟩ | rfl
  · rw [hi.exec] at h
    cases h
    have hfs := fun hbq (c : Chan) => staged_keeps (fun t => t.chans[c].fs) (fun _ => rfl) p (hi.fs hbq s c)
    have hth := fun hthick (c : Chan) =>
      staged_keeps (fun t => t.chans[c].th) (fun _ => rfl) p (hi.th hthick s c)
    have hch := fun hchug (c : Chan) =>
      staged_keeps (fun t => t.chans[c].ch) (fun _ => rfl) p (hi.ch hchug s c)
    have hframe := hi.staged_frame s
    generalize staged p op s = t at *
    refine ⟨?_, ?_, ?_, fun hbq c slot => by rw [hfs hbq c], hth, hch, fun _ => ⟨?_, ?_, ?_, fun _ => ?_⟩⟩ <;>
      rw [hframe]
  · rw [exec_of_designOf hd] at h
    cases h
    exact ⟨rfl, rfl, rfl, fun _ _ _ => rfl, fun _ _ => rfl, fun _ _ => rfl, fun _ => ⟨rfl, rfl, rfl,
      fun hnone => by rw [hd] at hnone; cases hnone⟩⟩
  · rw [exec_endPass] at h
    cases h
    obtain ⟨-, heq⟩ | ⟨-, -, heq⟩ | ⟨-, -, heq⟩ := endFrame_cases s <;> rw [heq] <;>
      exact ⟨rfl, rfl, rfl, fun _ _ _ => rfl, fun _ _ => rfl, fun _ _ => rfl,
        fun _ => ⟨rfl, rfl, rfl, fun _ => rfl⟩⟩
  · obtain ⟨-, rfl⟩ := exec_updset_next h
    exact ⟨rfl, rfl, rfl, fun _ _ _ => rfl, fun _ _ => rfl, fun _ _ => rfl,
      fun _ => ⟨rfl, rfl, rfl, fun _ => rfl⟩⟩
  · obtain ⟨-, rfl⟩ := exec_setmute_next h
    exact ⟨rfl, rfl, rfl, fun _ _ _ => rfl, fun _ _ => rfl, fun _ _ => rfl,
      fun _ => ⟨rfl, rfl, rfl, fun _ => rfl⟩⟩
  · exact absurd rfl (hconnect cfg)
  · obtain ⟨hcfg, hchain, hdesigner, hchans⟩ := execProcess_files h
    rw [hchans]
    exact ⟨hcfg, hchain, hdesigner, fun _ _ _ => rfl, fun _ _ => rfl, fun _ _ => rfl,
      fun hprocess => absurd rfl (hprocess ins out0 out1)⟩
  · exact absurd rfl hdisconnect

/-! ### The other channel's bundle (R206, R219) -/

/-- A bundle replaced. -/
def State.putChan (s : State) (c : Chan) (b : Channel) : State :=
  { s with chans := s.chans.set c.val b c.isLt }

theorem State.putChan_chan {s : State} {c : Chan} (hc : c ≠ s.cc) (b : Channel) :
    (s.putChan c b).chan = s.chan := by
  have hne : c.val ≠ s.cc.val := fun e => hc (Fin.ext e)
  exact Vector.getElem_set_ne c.isLt s.cc.isLt hne

/-- A write to the current bundle and one to the other commute. -/
theorem State.setChan_putChan {s : State} {c : Chan} (hc : c ≠ s.cc) (b d : Channel) :
    (s.putChan c b).setChan d = (s.setChan d).putChan c b := by
  have hne : c.val ≠ s.cc.val := fun e => hc (Fin.ext e)
  have hset : (s.chans.set c.val b c.isLt).set s.cc.val d s.cc.isLt =
      (s.chans.set s.cc.val d s.cc.isLt).set c.val b c.isLt := Vector.set_comm _ _ hne
  exact congrArg (fun chans => { s with chans := chans }) hset

theorem State.setFilter_putChan {s : State} {c : Chan} (hc : c ≠ s.cc) (b : Channel) (slot : Slot)
    (f : FilterState) : (s.putChan c b).setFilter slot f = (s.setFilter slot f).putChan c b := by
  rw [State.setFilter, State.putChan_chan hc, State.setChan_putChan hc, State.setFilter]

theorem State.setThicken_putChan {s : State} {c : Chan} (hc : c ≠ s.cc) (b : Channel)
    (t : ThickenTracker) : (s.putChan c b).setThicken t = (s.setThicken t).putChan c b := by
  rw [State.setThicken, State.putChan_chan hc, State.setChan_putChan hc, State.setThicken]

theorem State.setChug_putChan {s : State} {c : Chan} (hc : c ≠ s.cc) (b : Channel) (t : ChugTracker) :
    (s.putChan c b).setChug t = (s.setChug t).putChan c b := by
  rw [State.setChug, State.putChan_chan hc, State.setChan_putChan hc, State.setChug]

/-- No stage operation reads or writes the other channel's bundle. -/
theorem IsStage.putChan {i : Instr} {p : Pred} {op : State → State} (h : IsStage i p op) {s : State}
    {c : Chan} (hc : c ≠ s.cc) (b : Channel) : op (s.putChan c b) = (op s).putChan c b := by
  have hchan : (s.putChan c b).chan = s.chan := State.putChan_chan hc b
  cases h with
  | ldin =>
    have haddr : (s.putChan c b).inputAddr = s.inputAddr := rfl
    unfold opLdin
    rw [haddr]
    split <;> rfl
  | outg => rw [opOutg_eq, opOutg_eq]; rfl
  | bq slot => rw [opBq, hchan, State.setFilter_putChan hc]; rfl
  | thick => rw [opThick, hchan, State.setThicken_putChan hc]; rfl
  | chug => rw [opChug, hchan, State.setChug_putChan hc]; rfl
  | preg | shape | trim | stout => rfl

/-- Settles O39: the operation, the designer and the end of a frame each commute with the other bundle. -/
theorem otherChannelIsInvisible : Obligations.OtherChannelIsInvisible := by
  unfold Obligations.OtherChannelIsInvisible
  rintro i s t c b (hadv | rfl) hc h
  · rcases advances_cases hadv with ⟨p, op, hi⟩ | ⟨slot, type, hd⟩
    · rw [hi.exec] at h ⊢
      cases h
      exact congrArg _ (staged_comm (u := fun t => t.putChan c b) (fun _ => rfl) p rfl (hi.putChan hc b))
    · rw [exec_of_designOf hd] at h ⊢
      cases h
      rfl
  · rw [exec_endPass] at h ⊢
    cases h
    unfold State.endFrame
    split_ifs <;> rfl

/-! ### The step (R207, R203 to R205) -/

theorem State.inBlock_of {s : State} (hconn : s.conn = true) (hrun : s.run = true) : s.inBlock = true := by
  rw [State.inBlock, hconn, hrun]
  rfl

theorem State.not_inBlock_of {s : State} (h : s.conn = false ∨ s.run = false) : s.inBlock = false := by
  rw [State.inBlock, Bool.and_eq_false_iff]
  exact h

/-- Inside a block the step runs the descriptor at `spc`. -/
theorem step_of_descriptor {s : State} {w : Word16} {i : Instr} (hb : s.inBlock = true)
    (hw : s.chainRom[s.spc]? = some w) (hi : decodeDescriptor w = .ok i) : step s = exec i s := by
  rw [step, fetch_inBlock hb, fetchDescriptor_run hw hi]

/-- Settles O7: the fetch of a block; what decodes is well formed (O3's lemma). -/
theorem stepRunsTheDescriptorAtSpc : Obligations.StepRunsTheDescriptorAtSpc := by
  unfold Obligations.StepRunsTheDescriptorAtSpc
  intro s w i hconn hrun hw hi
  obtain ⟨-, -, hwf⟩ := of_decodeDescriptor hi
  exact ⟨hwf, step_of_descriptor (State.inBlock_of hconn hrun) hw hi⟩

/-- Between blocks the step takes the host's next action. -/
theorem step_of_run {s : State} {action : HostAction} {rest : List HostAction} {i : Instr}
    (hb : s.inBlock = false) (hinbox : s.inbox = action :: rest) (hi : hostEvent action = .run i) :
    step s = exec i { s with inbox := rest } := by
  rw [step, fetch_between hb action rest hinbox, hi]

/-- Settles O8: the fetch between blocks, by the kind of the action; the samples by the laws of memory. -/
theorem stepBetweenBlocksTakesTheHostsNextAction :
    Obligations.StepBetweenBlocksTakesTheHostsNextAction := by
  unfold Obligations.StepBetweenBlocksTakesTheHostsNextAction
  intro s rest hidle
  have hb : s.inBlock = false := State.not_inBlock_of hidle
  refine ⟨fun words i hinbox hi => ?_, fun words e hinbox he => ?_, fun sig hinbox => ?_,
    fun base samples hinbox => ⟨?_, fun hwf => ⟨?_, ?_, ?_⟩⟩, fun hinbox => ?_⟩
  · exact step_of_run hb hinbox (by rw [hostEvent, hi])
  · rw [step, fetch_between hb _ rest hinbox, hostEvent, he]
  · exact step_of_run hb hinbox rfl
  · rw [step, fetch_between hb _ rest hinbox]
    rfl
  · exact writeSamples_wf hwf base samples
  · exact fun n hn => readNum_writeSamples hwf base samples n hn
  · exact fun addr haddr => readByte_writeSamples_other hwf base samples addr haddr
  · rw [step, fetch_idle hb hinbox]

/-! ### The host's actions inside a block -/

/-- No stage operation reads or writes the host's pending actions. -/
theorem IsStage.inbox {i : Instr} {p : Pred} {op : State → State} (h : IsStage i p op) (s : State)
    (actions : List HostAction) : op { s with inbox := actions } = { op s with inbox := actions } := by
  cases h with
  | ldin =>
    have haddr : State.inputAddr { s with inbox := actions } = s.inputAddr := rfl
    unfold opLdin
    rw [haddr]
    split <;> rfl
  | outg => rw [opOutg_eq, opOutg_eq]; rfl
  | bq | thick | chug | preg | shape | trim | stout => rfl

/-- A word decodes to a descriptor: one that moves `spc` on, or END. -/
theorem isDescriptor_of_decode {w : Word16} {i : Instr} (h : decodeDescriptor w = .ok i) :
    advances i = true ∨ i = .endPass := by
  obtain ⟨-, hencode, -⟩ := of_decodeDescriptor h
  rcases instr_cases i with ⟨p, op, hi⟩ | ⟨slot, type, hd⟩ | hend | ⟨m, rfl⟩ | ⟨b, rfl⟩ | ⟨cfg, rfl⟩ |
    ⟨ins, out0, out1, rfl⟩ | rfl
  · exact .inl (by rw [advances, hi.stagePred]; rfl)
  · exact .inl (by rw [advances, hd, Option.isSome_some, Bool.or_true])
  · exact .inr hend
  all_goals cases hencode

/-- No descriptor reads or writes the host's pending actions. -/
theorem exec_inbox {i : Instr} {s t : State} (hi : advances i = true ∨ i = .endPass)
    (h : exec i s = .next t) (actions : List HostAction) :
    t.inbox = s.inbox ∧ exec i { s with inbox := actions } = .next { t with inbox := actions } := by
  rcases hi with hadv | rfl
  · rcases advances_cases hadv with ⟨p, op, hi⟩ | ⟨slot, type, hd⟩
    · rw [hi.exec] at h ⊢
      cases h
      exact ⟨by rw [hi.staged_frame s], congrArg _ (staged_comm
        (u := fun t => { t with inbox := actions }) (fun _ => rfl) p rfl (hi.inbox s actions))⟩
    · rw [exec_of_designOf hd] at h ⊢
      cases h
      exact ⟨rfl, rfl⟩
  · rw [exec_endPass] at h ⊢
    cases h
    unfold State.endFrame
    split_ifs <;> exact ⟨rfl, rfl⟩

/-- Settles O9: a step of a block is a descriptor's, which has no part in the inbox. -/
theorem hostActionsWaitForTheBlock : Obligations.HostActionsWaitForTheBlock := by
  unfold Obligations.HostActionsWaitForTheBlock
  intro s t actions hconn hrun h
  have hb : s.inBlock = true := State.inBlock_of hconn hrun
  rcases step_cases h with ⟨-, w, i, hw, hi, hexec⟩ | ⟨hno, -⟩ | ⟨hno, -⟩ | ⟨hno, -⟩ | ⟨hno, -⟩
  · obtain ⟨hinbox, hsame⟩ := exec_inbox (isDescriptor_of_decode hi) hexec actions
    refine ⟨hinbox, (step_of_descriptor (s := { s with inbox := actions }) hb hw hi).trans hsame⟩
  all_goals exact absurd (hb.symm.trans hno) (by decide)

end Machine

end Sys2Proof
end

section
/-! PROOFS of the host's messages and signals (46_block_processor.md R201 to R205, 20_memory.md R55, R56,
60_exceptions.md R255), and of the drive settings at their origin (00_scope.md R6). -/

namespace Sys2Proof

namespace Machine

/-! ### `UPDSET` and `SETMUTE` (R203, R204) -/

theorem exec_updset (m : SettingsMsg) (s : State) : exec (.updset m) s =
    if s.conn then .next { s with pendSnap := some m } else .refused .notConnected := rfl

theorem exec_setmute (b : Bool) (s : State) : exec (.setmute b) s =
    if s.conn then .next { s with pendMute := some b } else .refused .notConnected := rfl

/-- Settles O30: by the connection, on which alone both depend. -/
theorem messagesArePostedInTheMailbox : Obligations.MessagesArePostedInTheMailbox := by
  unfold Obligations.MessagesArePostedInTheMailbox
  refine fun s m b => ⟨fun hconn => ?_, fun hconn => ?_⟩
  · rw [exec_updset, exec_setmute, if_pos hconn, if_pos hconn]
    exact ⟨rfl, rfl⟩
  · have hno : ¬ s.conn = true := by rw [hconn]; decide
    rw [exec_updset, exec_setmute, if_neg hno, if_neg hno]
    exact ⟨rfl, rfl⟩

/-! ### `DISCONNECT` (R202) -/

theorem exec_process_of_no_connection {s : State} (h : s.conn = false) (ins : List Nat) (out0 out1 : Nat) :
    exec (.process ins out0 out1) s = .refused .notConnected :=
  if_neg (by rw [h]; decide)

/-- Settles O33: the state `DISCONNECT` leaves is unconnected, so all three are refused. -/
theorem disconnectEndsTheConnection : Obligations.DisconnectEndsTheConnection := by
  unfold Obligations.DisconnectEndsTheConnection
  refine fun s => ⟨_, rfl, rfl, rfl, rfl, rfl, rfl, fun ins out0 out1 m b => ⟨?_, ?_, ?_⟩⟩
  · exact exec_process_of_no_connection rfl ins out0 out1
  · rw [exec_updset]
    rfl
  · rw [exec_setmute]
    rfl

/-! ### `CONNECT` (R201) -/

theorem exec_connect (cfg : Cfg) (s : State) : exec (.connect cfg) s =
    if cfgValid cfg then
      if s.romsLegal then toOutcome (applySnapshot snapshotDefault (connectBase cfg s))
      else .refused .reservedDescriptor
    else .refused .badConfiguration := rfl

/-- With the ROMs of R77 and R78, applying the default snapshot leaves the reset state as it is. -/
theorem exec_connect_rom {cfg : Cfg} {s : State} (hcfg : cfgValid cfg = true)
    (hchain : s.chainRom = chainRomWords) (hdesigner : s.designerRom = designerRomWords) :
    exec (.connect cfg) s = .next (connectBase cfg s) := by
  rw [exec_connect, if_pos hcfg, if_pos (romsLegal_of_fixed hchain hdesigner), toOutcome_next]
  exact applySnapshot_rom (s := connectBase cfg s) hdesigner

theorem chans_connectBase (cfg : Cfg) (s : State) (c : Chan) :
    (connectBase cfg s).chans[c] = channelReset := Vector.getElem_replicate c.isLt

theorem filter_channelReset (slot : Slot) : channelReset.fs[slot] = filterReset :=
  Vector.getElem_replicate slot.isLt

/-- The designer's output for a snapshot, one slot. -/
theorem getElem_snapshotCoefs (snap : Snapshot) (cfg : Cfg) (slot : Slot) :
    (snapshotCoefs snap cfg)[slot] = slotCoefs snap cfg slot (slotParam snap cfg slot).type :=
  Vector.getElem_ofFn slot.isLt

/-- Settles O31: the connected state is `connectBase`, whose fields are the reset values; AMOUNT is the
shaper's at the origin. -/
theorem connectResetsEverything : Obligations.ConnectResetsEverything := by
  unfold Obligations.ConnectResetsEverything
  intro cfg s hcfg hchain hdesigner
  refine ⟨_, exec_connect_rom hcfg hchain hdesigner, rfl, rfl, fun c slot => ?_, fun c => ?_, rfl, ?_,
    fun slot => getElem_snapshotCoefs snapshotDefault cfg slot, rfl, rfl, rfl, rfl, rfl, rfl, rfl, rfl, rfl,
    rfl, rfl, rfl, rfl⟩
  · rw [chans_connectBase]
    exact filter_channelReset slot
  · rw [chans_connectBase]
    exact ⟨rfl, rfl⟩
  · exact (Fp.eq_zero_iff _).mpr (shapeAmount_origin (cfgValid_shape hcfg))

/-! ### `PROCESS` (R205, R213) -/

theorem exec_process (ins : List Nat) (out0 out1 : Nat) (s : State) : exec (.process ins out0 out1) s =
    if s.conn then
      if s.run then .refused .blockInProgress
      else if buffersDisjoint s.cfg.blockLen ins out0 out1 then
        if s.romsLegal then toOutcome ((boundary s).map (beginBlock ins out0 out1))
        else .refused .reservedDescriptor
      else .refused .buffersOverlap
    else .refused .notConnected := rfl

/-- `PROCESS` between blocks on disjoint buffers: legal ROMs are all it still asks for. -/
theorem exec_process_ready {ins : List Nat} {out0 out1 : Nat} {s : State} (hconn : s.conn = true)
    (hrun : s.run = false) (hbuf : buffersDisjoint s.cfg.blockLen ins out0 out1 = true) :
    exec (.process ins out0 out1) s =
      if s.romsLegal then toOutcome ((boundary s).map (beginBlock ins out0 out1))
      else .refused .reservedDescriptor := by
  rw [exec_process, if_pos hconn, if_neg (by rw [hrun]; decide), if_pos hbuf]

/-- What the boundary step makes of what is pending (R213, R216, R217). -/
structure BoundaryOk (s t : State) : Prop where
  frame : t = { s with
    snap := t.snap, amount := t.amount, coef := t.coef, muted := t.muted
    pendSnap := none, pendMute := none }
  muted : t.muted = s.pendMute.getD s.muted
  keeps : s.pendSnap = none → t.snap = s.snap ∧ t.amount = s.amount ∧ t.coef = s.coef
  applies : ∀ m, s.pendSnap = some m → t.snap = resolve m ∧
    t.amount = shapeAmount s.cfg (resolve m).drive (resolve m).punish (resolve m).plus10db ∧
    t.coef = snapshotCoefs (resolve m) s.cfg

theorem exists_boundary {s : State} (h : s.designerRom = designerRomWords) :
    ∃ t, boundary s = .ok t ∧ BoundaryOk s t := by
  have hb := boundary_rom h
  refine ⟨_, hb, boundary_ok hb, rfl, fun hnone => ?_, fun m hm => ?_⟩
  · simp only [hnone, and_self]
  · simp only [hm, and_self]

/-- `PROCESS` with the ROMs of R77 and R78: the boundary step, then the block begun. -/
theorem exec_process_rom {ins : List Nat} {out0 out1 : Nat} {s : State} (hconn : s.conn = true)
    (hrun : s.run = false) (hchain : s.chainRom = chainRomWords)
    (hdesigner : s.designerRom = designerRomWords)
    (hbuf : buffersDisjoint s.cfg.blockLen ins out0 out1 = true) :
    ∃ t, BoundaryOk s t ∧ exec (.process ins out0 out1) s = .next (beginBlock ins out0 out1 t) := by
  obtain ⟨t, ht, hok⟩ := exists_boundary hdesigner
  refine ⟨t, hok, ?_⟩
  rw [exec_process_ready hconn hrun hbuf, if_pos (romsLegal_of_fixed hchain hdesigner), ht]
  rfl

/-- Settles O32: the boundary's state with the block begun. -/
theorem processAppliesWhatIsPendingAndBeginsTheBlock :
    Obligations.ProcessAppliesWhatIsPendingAndBeginsTheBlock := by
  unfold Obligations.ProcessAppliesWhatIsPendingAndBeginsTheBlock
  intro s ins out0 out1 hconn hrun hchain hdesigner hbuf
  obtain ⟨t, hok, hexec⟩ := exec_process_rom hconn hrun hchain hdesigner hbuf
  refine ⟨_, hexec, ?_, hok.muted, hok.keeps, fun m hm => ?_⟩
  · conv_lhs => rw [hok.frame]
    rfl
  · obtain ⟨hsnap, hamount, hcoef⟩ := hok.applies m hm
    refine ⟨hsnap, hamount, fun slot => ?_⟩
    rw [← getElem_snapshotCoefs, ← hcoef]
    rfl

/-! ### Refusals (60_exceptions.md R255) -/

/-- Two channels are apart iff they share no byte. -/
theorem spansDisjoint_eq_false_iff (frames a b : Nat) : spansDisjoint frames a b = false ↔
    ∃ addr, (a ≤ addr ∧ addr < a + 8 * frames) ∧ b ≤ addr ∧ addr < b + 8 * frames := by
  rw [spansDisjoint, Bool.or_eq_false_iff, decide_eq_false_iff_not, decide_eq_false_iff_not]
  refine ⟨fun ⟨hab, hba⟩ => ⟨max a b, ?_, ?_⟩, fun ⟨addr, ha, hb⟩ => ⟨?_, ?_⟩⟩ <;> omega

theorem buffersDisjoint_eq_false_iff (frames : Nat) (ins : List Nat) (out0 out1 : Nat) :
    buffersDisjoint frames ins out0 out1 = false ↔ spansDisjoint frames out0 out1 = false ∨
      ∃ base ∈ ins, spansDisjoint frames base out0 = false ∨ spansDisjoint frames base out1 = false := by
  simp only [buffersDisjoint, Bool.and_eq_false_iff, List.all_eq_false, Bool.not_eq_true]

/-- A ROM with a word that is no legal descriptor is not legal (30_encoding.md R83). -/
theorem romsLegal_of_illegal {s : State} {w : Word16} (hmem : w ∈ s.chainRom ∨ w ∈ s.designerRom)
    (hw : ¬ legalDescriptor w) : s.romsLegal = false := by
  rw [State.romsLegal, List.all_eq_false]
  refine ⟨w, List.mem_append.mpr hmem, ?_⟩
  cases hd : decodeDescriptor w with
  | error e => exact Bool.false_ne_true
  | ok i => exact absurd (of_decodeDescriptor hd).1 hw

/-- Settles O34: shared bytes by the spans; R6 by `cfgValid_iff`; the refusals by the branch each is. -/
theorem misuseByTheHostIsRefused : Obligations.MisuseByTheHostIsRefused := by
  unfold Obligations.MisuseByTheHostIsRefused
  refine ⟨fun frames ins out0 out1 => ?_, fun cfg => ?_, fun s ins out0 out1 hconn hrun hbuf => ?_,
    fun s cfg hbad => ?_, fun s w hmem hw => ?_⟩
  · simp only [buffersDisjoint_eq_false_iff, spansDisjoint_eq_false_iff]
    constructor
    · rintro (⟨addr, hshared⟩ | ⟨base, hbase, ⟨addr, hin, hout⟩ | ⟨addr, hin, hout⟩⟩)
      · exact ⟨addr, .inl hshared⟩
      · exact ⟨addr, .inr ⟨base, hbase, hin, .inl hout⟩⟩
      · exact ⟨addr, .inr ⟨base, hbase, hin, .inr hout⟩⟩
    · rintro ⟨addr, hshared | ⟨base, hbase, hin, hout | hout⟩⟩
      · exact .inl ⟨addr, hshared⟩
      · exact .inr ⟨base, hbase, .inl ⟨addr, hin, hout⟩⟩
      · exact .inr ⟨base, hbase, .inr ⟨addr, hin, hout⟩⟩
  · simp only [cfgValid_iff, positive_iff, nonnegative_iff]
    rfl
  · rw [exec_process, if_pos hconn, if_neg (by rw [hrun]; decide), if_neg (by rw [hbuf]; decide)]
  · have hno : ¬ cfgValid cfg = true := fun hvalid => by
      rcases hbad with hinvalid | hshape
      · exact Bool.false_ne_true (hinvalid.symm.trans hvalid)
      · exact Bool.false_ne_true (hshape.symm.trans (cfgValid_shape hvalid))
    rw [exec_connect, if_neg hno]
  · have hno : ¬ s.romsLegal = true := by rw [romsLegal_of_illegal hmem hw]; decide
    refine ⟨fun cfg hcfg => ?_, fun ins out0 out1 hconn hrun hbuf => ?_⟩
    · rw [exec_connect, if_pos hcfg, if_neg hno]
    · rw [exec_process_ready hconn hrun hbuf, if_neg hno]

/-! ### The mailbox (20_memory.md R56) -/

/-- A snapshot posted over what is pending is that snapshot applied after it: every field one writes the
other writes again. -/
theorem boundary_post_snapshot {s : State} (h : s.designerRom = designerRomWords) (m : SettingsMsg) :
    boundary { s with pendSnap := some m } = (boundary s).bind (applySnapshot (resolve m)) := by
  have hpost : State.designerRom { s with pendSnap := some m } = designerRomWords := h
  rw [boundary_rom hpost, boundary_rom h]
  change _ = applySnapshot (resolve m) _
  cases hs : s.pendSnap <;> rw [applySnapshot_rom (by exact h)]

/-- A mute posted over what is pending is that mute applied after it. -/
theorem boundary_post_mute {s : State} (h : s.designerRom = designerRomWords) (b : Bool) :
    boundary { s with pendMute := some b } = (boundary s).map (fun t => { t with muted := b }) := by
  have hpost : State.designerRom { s with pendMute := some b } = designerRomWords := h
  rw [boundary_rom hpost, boundary_rom h]
  cases hs : s.pendSnap <;> rfl

/-- The mailbox against the queue, whatever the mailbox holds already. -/
theorem boundary_postAll (messages : List (SettingsMsg ⊕ Bool)) {s : State}
    (h : s.designerRom = designerRomWords) :
    boundary (postAll messages s) = (boundary s).bind (applyAll messages) := by
  induction messages generalizing s with
  | nil =>
    change boundary s = (boundary s).bind .ok
    cases boundary s <;> rfl
  | cons message rest ih =>
    obtain ⟨t, ht, -⟩ := exists_boundary h
    cases message with
    | inl m =>
      rw [postAll, ih (by exact h), boundary_post_snapshot h, ht]
      change (applySnapshot (resolve m) t).bind (applyAll rest) = applyAll (.inl m :: rest) t
      rw [applyAll]
      cases applySnapshot (resolve m) t <;> rfl
    | inr b =>
      rw [postAll, ih (by exact h), boundary_post_mute h, ht]
      rfl

/-- With an empty mailbox the boundary step does nothing. -/
theorem boundary_of_empty {s : State} (hsnap : s.pendSnap = none) (hmute : s.pendMute = none) :
    boundary s = .ok s := by
  simp only [boundary, hsnap, hmute, applyMute_none]
  rw [← hsnap, ← hmute]

/-- Settles O35: by induction over the messages from any mailbox, the empty one at last. -/
theorem mailboxIsEquivalentToAQueue : Obligations.MailboxIsEquivalentToAQueue := by
  unfold Obligations.MailboxIsEquivalentToAQueue
  intro messages s hrom hsnap hmute
  rw [boundary_postAll messages hrom, boundary_of_empty hsnap hmute]
  rfl

/-! ### No drive (42_shaper.md R136) -/

/-- Settles O43: R6 on `ShapeAmount`; at the origin it is a zero, so that SHAPE sets the accumulator to
itself. -/
theorem noDriveMeansNoShaping : Obligations.NoDriveMeansNoShaping := by
  unfold Obligations.NoDriveMeansNoShaping
  refine ⟨fun cfg drive punish plus10db hcfg => ⟨?_, ?_⟩, fun p s t snap hcfg hdrive hpunish hplus hrom ht => ?_⟩
  · exact shapeAmount_nonnegative (cfgValid_shape hcfg) drive punish plus10db
  · exact (Fp.eq_zero_iff _).mpr (shapeAmount_origin (cfgValid_shape hcfg))
  · have hamount : Fp.isZero t.amount = true := by
      rw [applySnapshot_ok ht, hdrive, hpunish, hplus]
      exact shapeAmount_origin (cfgValid_shape hcfg)
    have hop : opShape t = t := by
      rw [opShape, shaper_of_isZero _ _ hamount]
      rfl
    rw [exec_shape]
    obtain ⟨-, heq⟩ | ⟨-, heq⟩ := staged_cases p opShape t
    · rw [heq, hop]
      rfl
    · rw [heq]
      rfl

end Machine

end Sys2Proof
end

section
/-! PROOFS of the whole machine (10_state.md section 9, 46_block_processor.md section 3, 60_exceptions.md
R240): the invariant, and the run of a block. -/

namespace Sys2Proof

namespace Machine

/-! ### The chain (30_encoding.md R77) -/

/-- Word `n` of the chain ROM is the code of descriptor `n` of the chain. -/
theorem decodeDescriptor_chainRomWords {n : Nat} (h : n < 20) :
    ∃ w, chainRomWords[n]? = some w ∧ decodeDescriptor w = .ok (Instr.chain[n]'h) := by
  have hwf : ∀ i ∈ Instr.chain, i.wellFormed = true := by decide
  have hcode : (Instr.chain.map encode)[n]? = (chainRomWords.map Code.descriptor)[n]? := by
    rw [map_encode_chain]
  have hw : n < chainRomWords.length := h
  have hi : n < Instr.chain.length := h
  rw [List.getElem?_map, List.getElem?_map, List.getElem?_eq_getElem hw, List.getElem?_eq_getElem hi] at hcode
  refine ⟨chainRomWords[n], List.getElem?_eq_getElem hw, ?_⟩
  have hdecode := decodeOfEncodeGivesBackTheInstruction Instr.chain[n] (hwf _ (List.getElem_mem hi))
  rw [Option.some.inj hcode] at hdecode
  exact hdecode

/-- All of the chain but its last descriptor moves `spc` on. -/
theorem advances_chain :
    ∀ n : Fin 19, advances (Instr.chain[n.val]'(Nat.lt_succ_of_lt n.isLt)) = true := by decide

/-- A step of a block with the chain ROM of R77 runs the descriptor of the chain at `spc`. -/
theorem step_of_chain {s : State} (hb : s.inBlock = true) (hrom : s.chainRom = chainRomWords)
    (hspc : s.spc < 20) : step s = exec (Instr.chain[s.spc]'hspc) s := by
  obtain ⟨w, hw, hi⟩ := decodeDescriptor_chainRomWords hspc
  exact step_of_descriptor hb (by rw [hrom]; exact hw) hi

/-! ### One descriptor of a block -/

/-- What a descriptor that moves `spc` on leaves alone, where it may write memory, and the lock. -/
structure DescriptorStep (s t : State) : Prop where
  frame : t = { s with acc := t.acc, chans := t.chans, coef := t.coef, mem := t.mem, spc := s.spc + 1 }
  mem : t.mem = s.mem ∨ t.mem = writeNum s.mem (sampleAddr s.outs[s.cc] s.nn) s.acc
  rings : (∀ c : Chan, ringOk s.chans[c].th) → ∀ c : Chan, ringOk t.chans[c].th

/-- A stage operation keeps the rings of the trackers (43_thicken.md R154). -/
theorem IsStage.rings {i : Instr} {p : Pred} {op : State → State} (h : IsStage i p op) {s : State}
    (hrings : ∀ c : Chan, ringOk s.chans[c].th) (c : Chan) : ringOk (op s).chans[c].th := by
  by_cases hthick : ∃ p, i = .thick p
  · obtain ⟨p', rfl⟩ := hthick
    cases h
    by_cases hc : c = s.cc
    · subst hc
      have hself : (opThick s).chans[s.cc].th = thickenStep s.chan.th s.acc :=
        congrArg Channel.th (s.setChan_chan { s.chan with th := thickenStep s.chan.th s.acc })
      rw [hself]
      exact ringOk_thickenStep (hrings s.cc) s.acc
    · rw [(IsStage.thick p).other s hc]
      exact hrings c
  · rw [h.th (fun p hp => hthick ⟨p, hp⟩)]
    exact hrings c

/-- A stage operation writes memory only as `STOUT` does (R212). -/
theorem IsStage.writes {i : Instr} {p : Pred} {op : State → State} (h : IsStage i p op) (s : State) :
    (op s).mem = s.mem ∨ (op s).mem = writeNum s.mem (sampleAddr s.outs[s.cc] s.nn) s.acc := by
  by_cases hstout : ∃ p, i = .stout p
  · obtain ⟨p', rfl⟩ := hstout
    cases h
    exact .inr rfl
  · exact .inl (h.mem (fun p hp => hstout ⟨p, hp⟩) s)

/-- A descriptor but END goes on. -/
theorem exists_descriptorStep {i : Instr} (h : advances i = true) (s : State) :
    ∃ t, exec i s = .next t ∧ DescriptorStep s t := by
  rcases advances_cases h with ⟨p, op, hi⟩ | ⟨slot, type, hd⟩
  · refine ⟨_, hi.exec s, ?_, ?_, fun hrings => ?_⟩
    · conv_lhs => rw [hi.staged_frame s]
      rw [hi.staged_frame s]
    · obtain ⟨-, hs⟩ | ⟨-, hs⟩ := staged_cases p op s <;> rw [hs]
      · exact hi.writes s
      · exact .inl rfl
    · obtain ⟨-, hs⟩ | ⟨-, hs⟩ := staged_cases p op s <;> rw [hs]
      · exact hi.rings hrings
      · exact hrings
  · exact ⟨_, exec_of_designOf hd s, rfl, .inl rfl, fun hrings => hrings⟩

/-- A step of a block: a descriptor of the chain that moves `spc` on, or its END. -/
theorem step_inBlock_cases {s : State} (hb : s.inBlock = true) (hrom : s.chainRom = chainRomWords)
    (hspc : s.spc < 20) :
    (s.spc < 19 ∧ ∃ t, step s = .next t ∧ DescriptorStep s t) ∨
    (s.spc = 19 ∧ step s = .next s.endFrame) := by
  have hstep := step_of_chain hb hrom hspc
  by_cases hlast : s.spc = 19
  · refine .inr ⟨hlast, hstep.trans ?_⟩
    have hend : Instr.chain[s.spc]'hspc = .endPass := by
      simp only [hlast]
      rfl
    rw [hend, exec_endPass]
  · have hlt : s.spc < 19 := by omega
    obtain ⟨t, hexec, hdescriptor⟩ := exists_descriptorStep (advances_chain ⟨s.spc, hlt⟩) s
    exact .inl ⟨hlt, t, hstep.trans hexec, hdescriptor⟩

/-! ### The invariant -/

theorem ringOk_thickenReset : ringOk thickenReset := ⟨by decide, by decide⟩

theorem snapshotFinite_default : snapshotFinite snapshotDefault = true := by decide

/-- A connection just made. -/
theorem connectionOk_resetWith {cfg : Cfg} (hcfg : cfgValid cfg = true) (acc : NUM) :
    ConnectionOk (State.resetWith cfg acc) where
  cfg := hcfg
  sequencer := ⟨fun hrun => absurd hrun Bool.false_ne_true, fun _ => ⟨rfl, rfl, rfl⟩⟩
  snap := snapshotFinite_default
  amount := shapeAmount_nonnegative (cfgValid_shape hcfg) _ _ _
  rings := fun c => by
    have hchan : (State.resetWith cfg acc).chans[c] = channelReset := Vector.getElem_replicate c.isLt
    rw [hchan]
    exact ringOk_thickenReset

/-- Settles O55: reset is the connection of a valid configuration, with no memory. -/
theorem resetMeetsTheInvariant : Obligations.ResetMeetsTheInvariant where
  mem := rfl
  chainRom := rfl
  designerRom := rfl
  connection := fun _ => connectionOk_resetWith cfgValid_resetCfg Const.zero

/-- The invariant does not speak of the inbox and the mailbox, and of memory only that it is canonical. -/
theorem Invariant.of_same {s t : State} (h : Invariant s) (hmem : t.mem.wf = true)
    (hsame : t = { s with
      mem := t.mem, inbox := t.inbox, pendSnap := t.pendSnap, pendMute := t.pendMute }) : Invariant t := by
  rw [hsame]
  refine ⟨hmem, h.chainRom, h.designerRom, fun hconn => ?_⟩
  have hok := h.connection hconn
  exact ⟨hok.cfg, hok.sequencer, hok.snap, hok.amount, hok.rings⟩

theorem writes_wf {s t : State} (hwf : s.mem.wf = true)
    (h : t.mem = s.mem ∨ t.mem = writeNum s.mem (sampleAddr s.outs[s.cc] s.nn) s.acc) :
    t.mem.wf = true := by
  rcases h with h | h <;> rw [h]
  · exact hwf
  · exact writeNum_wf hwf _ _

/-- A descriptor that moves `spc` on, short of the end of the chain, keeps the invariant. -/
theorem Invariant.descriptorStep {s t : State} (h : Invariant s) (hrun : s.run = true)
    (hspc : s.spc < 19) (ht : DescriptorStep s t) : Invariant t := by
  have hwf := writes_wf h.mem ht.mem
  have hrings := ht.rings
  rw [ht.frame]
  refine ⟨hwf, h.chainRom, h.designerRom, fun hconn => ?_⟩
  have hok := h.connection hconn
  obtain ⟨hnn, -⟩ := hok.sequencer.1 hrun
  exact ⟨hok.cfg, ⟨fun _ => ⟨hnn, Nat.succ_lt_succ hspc⟩, fun hno => absurd (hrun.symm.trans hno) (by decide)⟩,
    hok.snap, hok.amount, hrings hok.rings⟩

/-- The end of a frame keeps the invariant: the next frame is one of the block. -/
theorem Invariant.endFrame {s : State} (h : Invariant s) (hrun : s.run = true) : Invariant s.endFrame := by
  have hpos : s.conn = true → 1 ≤ s.cfg.blockLen := fun hconn => by
    obtain ⟨-, hlen, -⟩ := (cfgValid_iff _).mp (h.connection hconn).cfg
    exact hlen
  have hno : ¬ s.run = false := by rw [hrun]; decide
  obtain ⟨hlt, heq⟩ | ⟨-, -, heq⟩ | ⟨-, -, heq⟩ := endFrame_cases s <;> rw [heq] <;>
    refine ⟨h.mem, h.chainRom, h.designerRom, fun hconn => ?_⟩ <;>
    obtain ⟨hcfg, -, hsnap, hamount, hrings⟩ := h.connection hconn
  · exact ⟨hcfg, ⟨fun _ => ⟨hlt, Nat.zero_lt_succ _⟩, fun hend => absurd hend hno⟩, hsnap, hamount, hrings⟩
  · exact ⟨hcfg, ⟨fun _ => ⟨hpos hconn, Nat.zero_lt_succ _⟩, fun hend => absurd hend hno⟩, hsnap, hamount, hrings⟩
  · exact ⟨hcfg, ⟨fun hbegin => absurd hbegin Bool.false_ne_true, fun _ => ⟨rfl, rfl, rfl⟩⟩, hsnap, hamount,
      hrings⟩

/-- CONNECT leaves a connection just made. -/
theorem Invariant.connect {s t : State} (h : Invariant s) {cfg : Cfg}
    (ht : exec (.connect cfg) s = .next t) : Invariant t := by
  have hcfg : cfgValid cfg = true := by
    by_contra hno
    rw [exec_connect, if_neg hno] at ht
    cases ht
  rw [exec_connect_rom hcfg h.chainRom h.designerRom] at ht
  cases ht
  have hok := connectionOk_resetWith hcfg (Config.accAtConnect s.free)
  exact ⟨h.mem, h.chainRom, h.designerRom, fun _ =>
    ⟨hok.cfg, hok.sequencer, hok.snap, hok.amount, hok.rings⟩⟩

/-- PROCESS goes on only between blocks of a connection, on disjoint buffers. -/
theorem exec_process_next {ins : List Nat} {out0 out1 : Nat} {s t : State}
    (h : exec (.process ins out0 out1) s = .next t) : s.conn = true ∧ s.run = false ∧
      buffersDisjoint s.cfg.blockLen ins out0 out1 = true := by
  rw [exec_process] at h
  split_ifs at h with hconn hrun hbuf
  exact ⟨hconn, Bool.eq_false_of_not_eq_true hrun, hbuf⟩

/-- The boundary step keeps what the invariant says of the connection. -/
theorem Invariant.process {s t : State} (h : Invariant s) {ins : List Nat} {out0 out1 : Nat}
    (ht : exec (.process ins out0 out1) s = .next t) : Invariant t := by
  obtain ⟨hconn, hrun, hbuf⟩ := exec_process_next ht
  obtain ⟨u, hu, hexec⟩ := exec_process_rom hconn hrun h.chainRom h.designerRom hbuf
  rw [hexec] at ht
  cases ht
  obtain ⟨hcfg, -, hsnap, hamount, hrings⟩ := h.connection hconn
  obtain ⟨-, hlen, -⟩ := (cfgValid_iff _).mp hcfg
  have hsnap' : snapshotFinite u.snap = true ∧ nonnegative u.amount = true := by
    cases hp : s.pendSnap with
    | none =>
      obtain ⟨hsame, hamt, -⟩ := hu.keeps hp
      rw [hsame, hamt]
      exact ⟨hsnap, hamount⟩
    | some m =>
      obtain ⟨hnew, hamt, -⟩ := hu.applies m hp
      rw [hnew, hamt]
      exact ⟨snapshotFinite_resolve m, shapeAmount_nonnegative (cfgValid_shape hcfg) _ _ _⟩
  obtain ⟨hfinite, hnonneg⟩ := hsnap'
  rw [hu.frame]
  exact ⟨h.mem, h.chainRom, h.designerRom, fun _ => ⟨hcfg, ⟨fun _ => ⟨hlen, Nat.zero_lt_succ _⟩,
    fun hend => absurd hend (Bool.false_ne_true ∘ Eq.symm)⟩, hfinite, hnonneg, hrings⟩⟩

/-- What the host can have executed: a message or a signal. -/
theorem hostEvent_run {action : HostAction} {i : Instr} (h : hostEvent action = .run i) :
    (∃ m, i = .updset m) ∨ (∃ b, i = .setmute b) ∨ (∃ cfg, i = .connect cfg) ∨
    (∃ ins out0 out1, i = .process ins out0 out1) ∨ i = .disconnect := by
  cases action with
  | store base samples => cases h
  | signal sig =>
    cases h
    cases sig with
    | connect cfg => exact .inr (.inr (.inl ⟨cfg, rfl⟩))
    | process ins out0 out1 => exact .inr (.inr (.inr (.inl ⟨ins, out0, out1, rfl⟩)))
    | disconnect => exact .inr (.inr (.inr (.inr rfl)))
  | message words =>
    have hdecode : decodeMessage words = .ok i := by
      simp only [hostEvent] at h
      split at h
      next j hj =>
        cases h
        exact hj
      next => cases h
    cases words with
    | nil => cases hdecode
    | cons header payload =>
      rcases of_decodeMessage hdecode with ⟨hop, hzero, hlen⟩ | ⟨hop, hzero, rfl⟩
      · rw [decodeMessage_updset (BitVec.eq_of_toNat_eq hop) (BitVec.eq_of_toNat_eq hzero) hlen] at hdecode
        exact .inl ⟨_, (Except.ok.inj hdecode).symm⟩
      · rw [decodeMessage_setmute (BitVec.eq_of_toNat_eq hop) (BitVec.eq_of_toNat_eq hzero)] at hdecode
        exact .inr (.inl ⟨_, (Except.ok.inj hdecode).symm⟩)

/-- Settles O56: by what the step is. -/
theorem everyStepKeepsTheInvariant : Obligations.EveryStepKeepsTheInvariant := by
  unfold Obligations.EveryStepKeepsTheInvariant
  intro s t hinv h
  rcases step_cases h with ⟨hb, -⟩ | ⟨-, action, rest, i, -, hrun, hexec⟩ | ⟨-, action, rest, -, -, rfl⟩ |
    ⟨-, base, samples, rest, -, rfl⟩ | ⟨-, -, rfl⟩
  · obtain ⟨hconn, hrun⟩ := (Bool.and_eq_true _ _).mp hb
    obtain ⟨-, hspc⟩ := (hinv.connection hconn).sequencer.1 hrun
    rcases step_inBlock_cases hb hinv.chainRom hspc with ⟨hlt, u, hu, hdescriptor⟩ | ⟨-, hend⟩
    · cases h.symm.trans hu
      exact hinv.descriptorStep hrun hlt hdescriptor
    · cases h.symm.trans hend
      exact hinv.endFrame hrun
  · have htaken : Invariant { s with inbox := rest } := hinv.of_same hinv.mem rfl
    rcases hostEvent_run hrun with ⟨m, rfl⟩ | ⟨b, rfl⟩ | ⟨cfg, rfl⟩ | ⟨ins, out0, out1, rfl⟩ | rfl
    · obtain ⟨-, rfl⟩ := exec_updset_next hexec
      exact htaken.of_same hinv.mem rfl
    · obtain ⟨-, rfl⟩ := exec_setmute_next hexec
      exact htaken.of_same hinv.mem rfl
    · exact htaken.connect hexec
    · exact htaken.process hexec
    · cases hexec
      exact ⟨hinv.mem, hinv.chainRom, hinv.designerRom, fun hconn => absurd hconn Bool.false_ne_true⟩
  · exact hinv.of_same hinv.mem rfl
  · exact hinv.of_same (writeSamples_wf hinv.mem base samples) rfl
  · exact hinv

/-- Settles O57: every descriptor of the chain goes on. -/
theorem noStepOfABlockIsRefused : Obligations.NoStepOfABlockIsRefused := by
  unfold Obligations.NoStepOfABlockIsRefused
  intro s hinv hconn hrun
  obtain ⟨-, hspc⟩ := (hinv.connection hconn).sequencer.1 hrun
  rcases step_inBlock_cases (State.inBlock_of hconn hrun) hinv.chainRom hspc with ⟨-, t, ht, -⟩ | ⟨-, hend⟩
  · exact ⟨t, ht⟩
  · exact ⟨_, hend⟩

end Machine

end Sys2Proof
end

section
/-! PROOFS of the run of a block (46_block_processor.md R205 to R208, R221): its length, what it writes, and
what it writes under mute. -/

namespace Sys2Proof

namespace Machine

/-! ### Steps counted down -/

/-- A count that every step takes down by one, until the step that takes the last of it reaches the goal. -/
theorem stepN_of_countdown {P Q : State → Prop} {left : State → Nat}
    (h : ∀ s, P s → ∃ t, step s = .next t ∧ (P t ∧ left t + 1 = left s ∨ Q t ∧ left s = 1)) (k : Nat)
    {s : State} (hs : P s) (hk : left s = k) : ∃ t, stepN k s = .next t ∧ Q t := by
  induction k generalizing s with
  | zero =>
    obtain ⟨t, -, ⟨-, hleft⟩ | ⟨-, hleft⟩⟩ := h s hs <;> omega
  | succ k ih =>
    obtain ⟨t, ht, ⟨hP, hleft⟩ | ⟨hQ, hleft⟩⟩ := h s hs
    · rw [stepN, ht]
      exact ih hP (by omega)
    · obtain rfl : k = 0 := by omega
      rw [stepN, ht]
      exact ⟨t, rfl, hQ⟩

theorem stepN_one_add {s t : State} (h : step s = .next t) (k : Nat) : stepN (1 + k) s = stepN k t := by
  rw [Nat.add_comm, stepN, h]

/-! ### A block in progress -/

/-- A block just begun on outputs that are apart. -/
structure Begun (s : State) : Prop where
  inBlock : s.inBlock = true
  place : s.cc = 0 ∧ s.nn = 0 ∧ s.spc = 0
  frames : 0 < s.cfg.blockLen
  rom : s.chainRom = chainRomWords
  mem : s.mem.wf = true
  apart : spansDisjoint s.cfg.blockLen s.outs[(0 : Chan)] s.outs[(1 : Chan)] = true

/-- The address is outside both output channels. -/
def State.outsideOutputs (s : State) (addr : Nat) : Prop :=
  ∀ c : Chan, addr < s.outs[c] ∨ s.outs[c] + 8 * s.cfg.blockLen ≤ addr

/-- A state of the block that `begun` began. -/
structure Running (begun s : State) : Prop where
  frame : s = { begun with
    acc := s.acc, chans := s.chans, coef := s.coef, mem := s.mem, cc := s.cc, nn := s.nn, spc := s.spc }
  mem : s.mem.wf = true
  nn : s.nn < begun.cfg.blockLen
  spc : s.spc < 20
  bytes : ∀ addr, begun.outsideOutputs addr → readByte s.mem addr = readByte begun.mem addr

/-- The block that `begun` began has ended. -/
structure Ended (begun s : State) : Prop where
  frame : s = { begun with
    acc := s.acc, chans := s.chans, coef := s.coef, mem := s.mem
    run := false, cc := 0, nn := 0, spc := 0, ins := [], outs := Vector.replicate 2 0 }
  bytes : ∀ addr, begun.outsideOutputs addr → readByte s.mem addr = readByte begun.mem addr

/-- The descriptors a block has still to run: twenty for each frame not finished, less those of the frame
that are done. -/
def State.descriptorsLeft (s : State) : Nat :=
  20 * ((1 - s.cc.val) * s.cfg.blockLen + (s.cfg.blockLen - s.nn)) - s.spc

theorem Begun.running {s : State} (h : Begun s) : Running s s := by
  obtain ⟨-, hnn, hspc⟩ := h.place
  exact ⟨rfl, h.mem, by rw [hnn]; exact h.frames, by rw [hspc]; decide, fun _ _ => rfl⟩

theorem Begun.descriptorsLeft {s : State} (h : Begun s) : s.descriptorsLeft = 40 * s.cfg.blockLen := by
  obtain ⟨hcc, hnn, hspc⟩ := h.place
  rw [State.descriptorsLeft, hcc, hnn, hspc, show 1 - (0 : Chan).val = 1 from rfl]
  omega

section
variable {begun s t : State}

theorem Running.cfg_eq (h : Running begun s) : s.cfg = begun.cfg := by rw [h.frame]

theorem Running.outs_eq (h : Running begun s) : s.outs = begun.outs := by rw [h.frame]

theorem Running.muted_eq (h : Running begun s) : s.muted = begun.muted := by rw [h.frame]

theorem Running.inBlock (h : Running begun s) (hbegun : Begun begun) : s.inBlock = true := by
  rw [h.frame]
  exact hbegun.inBlock

theorem Running.rom (h : Running begun s) (hbegun : Begun begun) : s.chainRom = chainRomWords := by
  rw [h.frame]
  exact hbegun.rom

/-- A descriptor writes at most the current sample of the current output. -/
theorem Running.bytes_step (h : Running begun s) (ht : DescriptorStep s t) (addr : Nat)
    (haddr : begun.outsideOutputs addr) : readByte t.mem addr = readByte begun.mem addr := by
  rw [← h.bytes addr haddr]
  rcases ht.mem with hmem | hmem <;> rw [hmem]
  refine readByte_writeNum_other h.mem _ _ addr ?_
  have hout := haddr s.cc
  have hnn := h.nn
  rw [h.outs_eq, sampleAddr]
  omega

/-- A descriptor but END stays in the frame. -/
theorem Running.descriptorStep (h : Running begun s) (hspc : s.spc < 19) (ht : DescriptorStep s t) :
    Running begun t ∧ t.descriptorsLeft + 1 = s.descriptorsLeft := by
  have hnn := h.nn
  have hcfg := h.cfg_eq
  have hframe := ht.frame
  refine ⟨⟨?_, writes_wf h.mem ht.mem, ?_, ?_, h.bytes_step ht⟩, ?_⟩
  · conv_lhs => rw [hframe, h.frame]
    rw [hframe]
  · rw [hframe]
    exact hnn
  · rw [hframe]
    exact Nat.succ_lt_succ hspc
  · rw [hframe]
    simp only [State.descriptorsLeft, hcfg]
    omega

/-- `END` goes on to the next frame or the next channel, or ends the block. -/
theorem Running.endFrame (h : Running begun s) (hbegun : Begun begun) (hspc : s.spc = 19) :
    Running begun s.endFrame ∧ s.endFrame.descriptorsLeft + 1 = s.descriptorsLeft ∨
    Ended begun s.endFrame ∧ s.descriptorsLeft = 1 := by
  have hnn := h.nn
  have hcfg := h.cfg_eq
  have hframes := hbegun.frames
  obtain ⟨hlt, heq⟩ | ⟨hlast, hcc, heq⟩ | ⟨hlast, hcc, heq⟩ := endFrame_cases s <;> rw [heq]
  · rw [hcfg] at hlt
    refine .inl ⟨⟨?_, h.mem, hlt, Nat.zero_lt_succ _, h.bytes⟩, ?_⟩
    · conv_lhs => rw [h.frame]
    · simp only [State.descriptorsLeft, hcfg]
      omega
  · rw [hcfg] at hlast
    refine .inl ⟨⟨?_, h.mem, hframes, Nat.zero_lt_succ _, h.bytes⟩, ?_⟩
    · conv_lhs => rw [h.frame]
    · simp only [State.descriptorsLeft, hcfg, hcc, Fin.val_zero, Fin.val_one]
      omega
  · rw [hcfg] at hlast
    refine .inr ⟨⟨?_, h.bytes⟩, ?_⟩
    · conv_lhs => rw [h.frame]
    · simp only [State.descriptorsLeft, hcfg, hcc, Fin.val_one]
      omega

/-- One step of a block in progress. -/
theorem Running.step_cases (h : Running begun s) (hbegun : Begun begun) :
    (s.spc < 19 ∧ ∃ t, step s = .next t ∧ DescriptorStep s t ∧
      Running begun t ∧ t.descriptorsLeft + 1 = s.descriptorsLeft) ∨
    (s.spc = 19 ∧ step s = .next s.endFrame ∧
      (Running begun s.endFrame ∧ s.endFrame.descriptorsLeft + 1 = s.descriptorsLeft ∨
        Ended begun s.endFrame ∧ s.descriptorsLeft = 1)) := by
  rcases step_inBlock_cases (h.inBlock hbegun) (h.rom hbegun) h.spc with
    ⟨hlt, t, ht, hdescriptor⟩ | ⟨hlast, hend⟩
  · exact .inl ⟨hlt, t, ht, hdescriptor, h.descriptorStep hlt hdescriptor⟩
  · exact .inr ⟨hlast, hend, h.endFrame hbegun hlast⟩

/-- A block just begun ends after twenty descriptors for each of its frames. -/
theorem Begun.stepN (h : Begun begun) : ∃ t, stepN (40 * begun.cfg.blockLen) begun = .next t ∧ Ended begun t := by
  refine stepN_of_countdown (P := Running begun) (fun s hs => ?_) _ h.running h.descriptorsLeft
  rcases hs.step_cases h with ⟨-, t, ht, -, hnext⟩ | ⟨-, hend, hnext⟩
  · exact ⟨t, ht, .inl hnext⟩
  · exact ⟨_, hend, hnext⟩

end

/-- `PROCESS` taken from the inbox begins the block. -/
theorem exists_begun {s : State} {ins : List Nat} {out0 out1 : Nat} {rest : List HostAction}
    (hinv : Invariant s) (hconn : s.conn = true) (hrun : s.run = false)
    (hinbox : s.inbox = .signal (.process ins out0 out1) :: rest)
    (hbuf : buffersDisjoint s.cfg.blockLen ins out0 out1 = true) :
    ∃ t, step s = .next (beginBlock ins out0 out1 t) ∧ BoundaryOk { s with inbox := rest } t ∧
      Begun (beginBlock ins out0 out1 t) := by
  obtain ⟨t, ht, hexec⟩ := exec_process_rom (s := { s with inbox := rest }) hconn hrun hinv.chainRom
    hinv.designerRom hbuf
  have hstep := step_of_run (State.not_inBlock_of (.inr hrun)) hinbox (by rfl)
  refine ⟨t, hstep.trans hexec, ht, ?_⟩
  obtain ⟨-, hlen, -⟩ := (cfgValid_iff _).mp (hinv.connection hconn).cfg
  obtain ⟨hapart, -⟩ := (Bool.and_eq_true _ _).mp hbuf
  rw [ht.frame]
  exact ⟨State.inBlock_of hconn rfl, ⟨rfl, rfl, rfl⟩, hlen, hinv.chainRom, hinv.mem, hapart⟩

/-- Settles O58: the signal begins the block, which ends by `Begun.stepN`. -/
theorem blockRunsToItsEnd : Obligations.BlockRunsToItsEnd := by
  unfold Obligations.BlockRunsToItsEnd
  intro s ins out0 out1 rest hinv hconn hrun hinbox hbuf
  obtain ⟨u, hstep, hu, hbegun⟩ := exists_begun hinv hconn hrun hinbox hbuf
  obtain ⟨t, ht, hended⟩ := hbegun.stepN
  have hcfg : u.cfg = s.cfg := by rw [hu.frame]
  have hmem : u.mem = s.mem := by rw [hu.frame]
  refine ⟨t, (stepN_one_add hstep _).trans (hcfg ▸ ht), ?_⟩
  have hbytes := hended.bytes
  rw [hended.frame]
  refine ⟨?_, rfl, rfl, rfl, rfl, ?_, ?_, ?_, fun addr hout0 hout1 => ?_⟩
  · rw [hu.frame]
    exact hconn
  · rw [hu.frame]
    rfl
  · rw [hu.frame]
    rfl
  · rw [hu.frame]
    rfl
  · rw [← hmem]
    refine hbytes addr (fun c => ?_)
    change addr < #v[out0, out1][c] ∨ #v[out0, out1][c] + 8 * u.cfg.blockLen ≤ addr
    rw [hcfg]
    fin_cases c
    · exact hout0
    · exact hout1

/-! ### A block under mute (R221) -/

/-- The sample is behind the sequencer: `STOUT` of its frame has run. -/
def State.stored (s : State) (c : Chan) (n : Nat) : Prop :=
  c.val < s.cc.val ∨ c.val = s.cc.val ∧ (n < s.nn ∨ n = s.nn ∧ 18 < s.spc)

/-- Under mute: behind the sequencer the outputs are `+0.0`, and so is the accumulator from `OUTG` on. -/
structure Zeroed (begun s : State) : Prop where
  samples : ∀ (c : Chan) (n : Nat), n < begun.cfg.blockLen → s.stored c n →
    readNum s.mem (sampleAddr begun.outs[c] n) = Const.zero
  acc : 17 < s.spc → s.acc = Const.zero

section
variable {begun s t : State}

/-- Different samples of outputs that are apart share no byte. -/
theorem Begun.samples_apart (h : Begun begun) {c d : Chan} {n m : Nat} (hn : n < begun.cfg.blockLen)
    (hm : m < begun.cfg.blockLen) (hne : c ≠ d ∨ n ≠ m) :
    sampleAddr begun.outs[c] n + 8 ≤ sampleAddr begun.outs[d] m ∨
      sampleAddr begun.outs[d] m + 8 ≤ sampleAddr begun.outs[c] n := by
  have hapart := h.apart
  rw [spansDisjoint, Bool.or_eq_true, decide_eq_true_eq, decide_eq_true_eq] at hapart
  simp only [sampleAddr]
  by_cases hcd : c = d
  · subst hcd
    have hnm : n ≠ m := hne.resolve_left (fun h => h rfl)
    omega
  · have hcases : ∀ c d : Chan, c ≠ d → c = 0 ∧ d = 1 ∨ c = 1 ∧ d = 0 := by decide
    obtain ⟨rfl, rfl⟩ | ⟨rfl, rfl⟩ := hcases c d hcd <;> omega

/-- A descriptor keeps every sample of the outputs but the current one. -/
theorem Running.readNum_step (h : Running begun s) (hbegun : Begun begun) (ht : DescriptorStep s t)
    {c : Chan} {n : Nat} (hn : n < begun.cfg.blockLen) (hne : c ≠ s.cc ∨ n ≠ s.nn) :
    readNum t.mem (sampleAddr begun.outs[c] n) = readNum s.mem (sampleAddr begun.outs[c] n) := by
  rcases ht.mem with hmem | hmem <;> rw [hmem]
  rw [h.outs_eq]
  exact readNum_writeNum_other h.mem _ _ _ (hbegun.samples_apart hn h.nn hne)

/-- What step a block in progress takes at `OUTG` and at `STOUT`, the last two before END. -/
theorem Running.step_outg (h : Running begun s) (hbegun : Begun begun) (hspc : s.spc = 17) :
    step s = .next (opOutg s).advance := by
  rw [step_of_chain (h.inBlock hbegun) (h.rom hbegun) h.spc]
  simp only [hspc]
  rfl

theorem Running.step_stout (h : Running begun s) (hbegun : Begun begun) (hspc : s.spc = 18) :
    step s = .next (opStout s).advance := by
  rw [step_of_chain (h.inBlock hbegun) (h.rom hbegun) h.spc]
  simp only [hspc]
  rfl

theorem opOutg_of_muted (h : s.muted = true) : opOutg s = s.setAcc Const.zero := if_pos h

/-- A descriptor but END keeps a muted block zeroed. -/
theorem Zeroed.descriptorStep (hz : Zeroed begun s) (h : Running begun s) (hbegun : Begun begun)
    (hmuted : begun.muted = true) (hspc : s.spc < 19) (hstep : step s = .next t)
    (ht : DescriptorStep s t) : Zeroed begun t := by
  have htcc : t.cc = s.cc := by rw [ht.frame]
  have htnn : t.nn = s.nn := by rw [ht.frame]
  have htspc : t.spc = s.spc + 1 := by rw [ht.frame]
  have hstout : s.spc = 18 → t = (opStout s).advance := fun h18 =>
    Host.Outcome.next.inj (hstep.symm.trans (h.step_stout hbegun h18))
  refine ⟨fun c n hn hstored => ?_, fun hlate => ?_⟩
  · rw [State.stored, htcc, htnn, htspc] at hstored
    by_cases hcurrent : c = s.cc ∧ n = s.nn
    · obtain ⟨rfl, rfl⟩ := hcurrent
      have h18 : s.spc = 18 := by omega
      rw [hstout h18, ← h.outs_eq]
      exact (readNum_writeNum h.mem _ _).trans (hz.acc (by omega))
    · rw [h.readNum_step hbegun ht hn (not_and_or.mp hcurrent)]
      refine hz.samples c n hn ?_
      rw [Fin.ext_iff] at hcurrent
      rw [State.stored]
      omega
  · by_cases h17 : s.spc = 17
    · rw [Host.Outcome.next.inj (hstep.symm.trans (h.step_outg hbegun h17)),
        opOutg_of_muted (h.muted_eq.trans hmuted)]
      rfl
    · rw [hstout (by omega)]
      exact hz.acc (by omega)

/-- `END` of a frame whose `STOUT` has run: the zeros are those behind the sequencer, and all of them when
the block ends. -/
theorem Zeroed.endFrame (hz : Zeroed begun s) (h : Running begun s) (hbegun : Begun begun)
    (hspc : s.spc = 19) : (s.endFrame.run = true → Zeroed begun s.endFrame) ∧
    (s.endFrame.run = false → ∀ (c : Chan) (n : Nat), n < begun.cfg.blockLen →
      readNum s.endFrame.mem (sampleAddr begun.outs[c] n) = Const.zero) := by
  have hnn := h.nn
  have hcfg := h.cfg_eq
  have hrun : s.run ≠ false := by
    obtain ⟨-, hrun⟩ := (Bool.and_eq_true _ _).mp (h.inBlock hbegun)
    rw [hrun]
    decide
  obtain ⟨hlt, heq⟩ | ⟨hlast, hcc, heq⟩ | ⟨hlast, hcc, heq⟩ := endFrame_cases s <;> rw [heq]
  · refine ⟨fun _ => ⟨fun c n hn hstored => hz.samples c n hn ?_, fun hlate => ?_⟩, fun hend => ?_⟩
    · simp only [State.stored] at hstored ⊢
      omega
    · exact absurd hlate (Nat.not_lt_zero _)
    · exact absurd hend hrun
  · refine ⟨fun _ => ⟨fun c n hn hstored => hz.samples c n hn ?_, fun hlate => ?_⟩, fun hend => ?_⟩
    · rw [hcfg] at hlast
      simp only [State.stored, hcc, Fin.val_zero, Fin.val_one] at hstored ⊢
      omega
    · exact absurd hlate (Nat.not_lt_zero _)
    · exact absurd hend hrun
  · refine ⟨fun hon => absurd hon Bool.false_ne_true, fun _ c n hn => hz.samples c n hn ?_⟩
    rw [hcfg] at hlast
    simp only [State.stored, hcc, Fin.val_one]
    omega

/-- A block begun under mute ends with zeros in both outputs. -/
theorem Begun.stepN_of_muted (h : Begun begun) (hmuted : begun.muted = true) :
    ∃ t, Machine.stepN (40 * begun.cfg.blockLen) begun = .next t ∧ ∀ (c : Chan) (n : Nat),
      n < begun.cfg.blockLen → readNum t.mem (sampleAddr begun.outs[c] n) = Const.zero := by
  obtain ⟨hcc, hnn, hspc⟩ := h.place
  have hzeroed : Zeroed begun begun := by
    refine ⟨fun c n hn hstored => ?_, fun hlate => ?_⟩
    · simp only [State.stored, hcc, hnn, hspc] at hstored
      omega
    · omega
  refine stepN_of_countdown (P := fun s => Running begun s ∧ Zeroed begun s) (fun s ⟨hs, hz⟩ => ?_) _
    ⟨h.running, hzeroed⟩ h.descriptorsLeft
  rcases hs.step_cases h with ⟨hlt, t, ht, hdescriptor, hrunning, hleft⟩ |
    ⟨hlast, hend, ⟨hrunning, hleft⟩ | ⟨hended, hleft⟩⟩
  · exact ⟨t, ht, .inl ⟨⟨hrunning, hz.descriptorStep hs h hmuted hlt ht hdescriptor⟩, hleft⟩⟩
  · obtain ⟨hon, -⟩ := hz.endFrame hs h hlast
    obtain ⟨-, hrun⟩ := (Bool.and_eq_true _ _).mp (hrunning.inBlock h)
    exact ⟨_, hend, .inl ⟨⟨hrunning, hon hrun⟩, hleft⟩⟩
  · obtain ⟨-, hoff⟩ := hz.endFrame hs h hlast
    exact ⟨_, hend, .inr ⟨hoff (by rw [hended.frame]), hleft⟩⟩

end

/-- Settles O59: the boundary makes the block a muted one; both outputs are its own. -/
theorem mutedBlockWritesOnlyZeros : Obligations.MutedBlockWritesOnlyZeros := by
  unfold Obligations.MutedBlockWritesOnlyZeros
  intro s ins out0 out1 rest hinv hconn hrun hinbox hbuf hmuted
  obtain ⟨u, hstep, hu, hbegun⟩ := exists_begun hinv hconn hrun hinbox hbuf
  obtain ⟨t, ht, hzero⟩ := hbegun.stepN_of_muted (hu.muted.trans hmuted)
  have hcfg : u.cfg = s.cfg := by rw [hu.frame]
  rw [← hcfg]
  exact ⟨t, (stepN_one_add hstep _).trans ht, fun n hn => ⟨hzero 0 n hn, hzero 1 n hn⟩⟩

end Machine

end Sys2Proof
end

section
/-! PROOFS of silence (46_block_processor.md R222): zeros in, finite settings and coefficients, zeros out. -/

namespace Sys2Proof

/-! ### Sums that stay finite, and zeros -/

/-- The largest finite NUM. -/
def Fp.largest : NUM := 0x7FEFFFFFFFFFFFFF#64

theorem Fp.ord_le_largest {x : NUM} (h : Fp.finite x = true) : Fp.ord x ≤ Fp.ord Fp.largest := by
  rw [Fp.finite_iff, Fp.infMagnitude] at h
  have hlargest : Fp.ord Fp.largest = 2047 * 2 ^ 52 - 1 := by decide
  have hle := (Fp.ord_le_magnitude x).1
  omega

/-- A value no larger in size than one that rounds to a finite NUM rounds to a finite NUM. -/
theorem Fp.Rounds.finite_of_abs_le_rounds {v w : ℝ} {r q : NUM} (h : Fp.Rounds v r) (hw : Fp.Rounds w q)
    (hq : Fp.finite q = true) (hle : |v| ≤ |w|) : Fp.finite r = true :=
  h.finite_iff.mpr
    ((mul_le_mul_of_nonneg_right hle (by positivity)).trans_lt (hw.finite_iff.mp hq))

/-- `3 + a` does not overflow: 3 is less than half a unit of the largest NUM. -/
theorem Fp.finite_add_shapeC {a : NUM} (ha : Fp.finite a = true) (h0 : Fp.le Const.zero a = true) :
    Fp.finite (Fp.add Const.shapeC a) = true := by
  have hlargest := Fp.rounds_add (a := Const.shapeC) (b := Fp.largest) rfl rfl
  have hfin : Fp.finite (Fp.add Const.shapeC Fp.largest) = true := by decide +kernel
  refine (Fp.rounds_add (a := Const.shapeC) rfl ha).finite_of_abs_le_rounds hlargest hfin ?_
  have hle : Fp.real a ≤ Fp.real Fp.largest := (Fp.real_le_iff_ord_le _ _).mpr (Fp.ord_le_largest ha)
  have hc : 0 ≤ Fp.real Const.shapeC := (Fp.real_nonneg_iff _).mpr (by decide)
  rw [Fp.zero_le_of_finite ha] at h0
  rw [abs_of_nonneg (add_nonneg hc h0), abs_of_nonneg (add_nonneg hc (h0.trans hle))]
  exact add_le_add_right hle _

theorem Fp.isZero_div {a b : NUM} (ha : Fp.isZero a = true) (hb : Fp.finite b = true)
    (hb0 : Fp.isZero b = false) : Fp.isZero (Fp.div a b) = true := by
  have h := Fp.rounds_div (Fp.finite_of_isZero ha) hb hb0
  rw [Fp.real_of_isZero ha, zero_div] at h
  exact h.isZero_of_zero

@[simp] theorem Fp.isZero_abs (x : NUM) : Fp.isZero (Fp.abs x) = Fp.isZero x := by
  rw [Bool.eq_iff_iff, Fp.isZero_iff_magnitude, Fp.isZero_iff_magnitude, Fp.magnitude_abs]

/-- The larger of `+0` and a number that is not positive is a zero. -/
theorem Fp.isZero_max_zero {v : NUM} (hv : Fp.isNaN v = false) (hle : Fp.ord v ≤ 0) :
    Fp.isZero (Fp.max Const.zero v) = true := by
  rcases Fp.max_cases (a := Const.zero) rfl hv with ⟨heq, -⟩ | ⟨heq, hge⟩ <;> rw [heq]
  · rfl
  · exact (Fp.ord_eq_zero_iff v).mp (le_antisymm hle hge)

namespace Machine

/-! ### Each stage on zeros -/

/-- The shaper of a zero is a zero (42_shaper.md R131, R132): the denominator is `PI`. -/
theorem isZero_shaper {k x a : NUM} (hk : Fp.finite k = true) (hx : Fp.isZero x = true)
    (ha : nonnegative a = true) : Fp.isZero (shaper k x a) = true := by
  cases hzero : Fp.isZero a with
  | true => rwa [shaper_of_isZero k x hzero]
  | false =>
    obtain ⟨hfin, h0⟩ := (nonnegative_iff a).mp ha
    have hdenominator : Fp.add Const.pi (Fp.mul a (Fp.abs x)) = Const.pi :=
      Fp.add_zero_right rfl rfl (Fp.isZero_mul hfin (by rwa [Fp.isZero_abs]))
    rw [shaper_of_not_isZero k x hzero, hdenominator]
    exact Fp.isZero_div (Fp.isZero_mul_left (Fp.isZero_mul (Fp.finite_add_shapeC hfin h0) hx) hk) rfl rfl

/-- An envelope follower at rest stays at rest (43_thicken.md R147, 44_chug.md R161). -/
theorem isZero_follow {env x : NUM} (henv : Fp.isZero env = true) (hx : Fp.isZero x = true) :
    Fp.isZero (Fp.add (Fp.mul env Const.envKeep) (Fp.mul (Fp.abs x) Const.envIn)) = true :=
  Fp.isZero_add (Fp.isZero_mul_left henv rfl) (Fp.isZero_mul_left (by rwa [Fp.isZero_abs]) rfl)

/-- Below the gate no lock is active (43_thicken.md R148). -/
theorem lockActive_of_isZero_env {t : ThickenTracker} (h : Fp.isZero t.env = true) : lockActive t = false := by
  have hord := (Fp.ord_eq_zero_iff t.env).mpr h
  have hgate : Fp.lt Const.thGate t.env = false := by
    rw [← Bool.not_eq_true, Fp.lt_iff, hord]
    rintro ⟨-, -, hlt⟩
    exact absurd hlt (by decide)
  rw [lockActive, hgate, Bool.and_false]

/-- The release of a sub-gain at 0 stops at 0 (43_thicken.md R149). -/
theorem isZero_release {v : NUM} (h : Fp.isZero v = true) :
    Fp.isZero (Fp.max Const.zero (Fp.sub v Const.thRelease)) = true := by
  have hsub := Fp.rounds_sub (Fp.finite_of_isZero h) (b := Const.thRelease) rfl
  refine Fp.isZero_max_zero hsub.isNaN (hsub.ord_nonpos ?_)
  have hrelease : 0 ≤ Fp.real Const.thRelease := (Fp.real_nonneg_iff _).mpr (by decide)
  rw [Fp.real_of_isZero h]
  linarith

/-- A Thicken tracker at rest, fed a zero: it stays at rest, and the oscillator does not move. -/
theorem thickenStep_of_isZero {t : ThickenTracker} {x : NUM} (henv : Fp.isZero t.env = true)
    (hsub : Fp.isZero t.sub = true) (hx : Fp.isZero x = true) :
    Fp.isZero (thickenStep t x).env = true ∧ Fp.isZero (thickenStep t x).sub = true ∧
      (thickenStep t x).phase = t.phase := by
  have hfollow : Fp.isZero (followSample (trackPeriod t x) x).env = true := by
    rw [followSample_env, trackPeriod_env]
    exact isZero_follow henv hx
  have hlock := lockActive_of_isZero_env hfollow
  refine ⟨?_, ?_, ?_⟩
  · rw [thickenStep, oscillate_env]
    exact hfollow
  · rw [thickenStep, oscillate_sub, hlock, followSample_sub, trackPeriod_sub]
    exact isZero_release hsub
  · rw [thickenStep, oscillate_phase, hlock, followSample_phase, trackPeriod_phase]
    rfl

theorem isZero_thickenMix {fns : Nat} {t : ThickenTracker} {amount x : NUM}
    (hsin : Fp.finite (Config.sin fns t.phase) = true) (henv : Fp.isZero t.env = true)
    (hsub : Fp.isZero t.sub = true) (hamount : Fp.finite amount = true) (hx : Fp.isZero x = true) :
    Fp.isZero (thickenMix fns t amount x) = true := by
  have hvoice := Fp.isZero_mul_left (Fp.isZero_mul hsin henv) (Fp.finite_of_isZero hsub)
  exact Fp.isZero_add hx (Fp.isZero_mul_left (Fp.isZero_mul_left hvoice hamount) rfl)

/-- Chug at rest multiplies by 1 (44_chug.md R162, R163). -/
theorem isZero_chugOut {t : ChugTracker} {amount x : NUM} (henv : Fp.isZero t.env = true)
    (hamount : Fp.finite amount = true) (hx : Fp.isZero x = true) :
    Fp.isZero (chugOut t amount x) = true := by
  have hsub : Fp.isZero (Fp.sub (Fp.abs x) (Fp.mul t.env Const.chugThresh)) = true :=
    Fp.isZero_sub (by rwa [Fp.isZero_abs]) (Fp.isZero_mul_left henv rfl)
  have htransient : Fp.isZero (chugTransient t x) = true :=
    Fp.isZero_max_zero (Fp.isNaN_of_finite (Fp.finite_of_isZero hsub)) ((Fp.ord_eq_zero_iff _).mpr hsub).le
  have hgain : Fp.add Const.one (Fp.mul (Fp.mul (chugTransient t x) amount) Const.four) = Const.one :=
    Fp.add_zero_right rfl rfl (Fp.isZero_mul_left (Fp.isZero_mul_left htransient hamount) rfl)
  rw [chugOut, hgain]
  exact Fp.isZero_mul_left hx rfl

/-- The settings that scale a sample, of a finite snapshot. -/
theorem finite_settings {p : Snapshot} (h : snapshotFinite p = true) :
    Fp.finite p.inputGain = true ∧ Fp.finite p.inputTrim = true ∧ Fp.finite p.thickenAmount = true ∧
    Fp.finite p.chugAmount = true ∧ Fp.finite p.outputGain = true ∧ Fp.finite p.masterVolume = true ∧
    Fp.finite p.outputTrim = true := by
  rw [snapshotFinite_iff] at h
  simp only [h, and_self]

/-! ### What keeps silence -/

section
variable {s : State}

theorem Silent.advance (h : Silent s) : Silent s.advance :=
  ⟨h.acc, h.filters, h.trackers, h.coefs, h.snap, h.amount, h.kShape, h.mem, h.input⟩

theorem Silent.setAcc (h : Silent s) {v : NUM} (hv : Fp.isZero v = true) : Silent (s.setAcc v) :=
  ⟨hv, h.filters, h.trackers, h.coefs, h.snap, h.amount, h.kShape, h.mem, h.input⟩

/-- A silent bundle in place of the current one. -/
theorem Silent.setChan (h : Silent s) {b : Channel} (hfs : ∀ slot : Slot, filterSilent b.fs[slot] = true)
    (htracker : Fp.isZero b.th.env = true ∧ Fp.isZero b.th.sub = true ∧ Fp.isZero b.ch.env = true) :
    Silent (s.setChan b) := by
  have hself : (s.setChan b).chans[s.cc] = b := s.setChan_chan b
  refine ⟨h.acc, fun c slot => ?_, fun c => ?_, h.coefs, h.snap, h.amount, h.kShape, h.mem, h.input⟩ <;>
    by_cases hc : c = s.cc
  · subst hc
    rw [hself]
    exact hfs slot
  · rw [s.setChan_other b c hc]
    exact h.filters c slot
  · subst hc
    rw [hself]
    exact htracker
  · rw [s.setChan_other b c hc]
    exact h.trackers c

/-- The filters of the current bundle stay silent when one of them is replaced by a silent one. -/
theorem Silent.filters_set (h : Silent s) (slot : Slot) {f : FilterState} (hf : filterSilent f = true)
    (other : Slot) : filterSilent (s.chan.fs.set slot.val f slot.isLt)[other] = true := by
  by_cases hslot : slot = other
  · subst hslot
    have hself : (s.chan.fs.set slot.val f slot.isLt)[slot] = f := Vector.getElem_set_self slot.isLt
    rw [hself]
    exact hf
  · have hne : slot.val ≠ other.val := fun e => hslot (Fin.ext e)
    have hkeep : (s.chan.fs.set slot.val f slot.isLt)[other] = s.chan.fs[other] :=
      Vector.getElem_set_ne slot.isLt other.isLt hne
    rw [hkeep]
    exact h.filters s.cc other

/-- An input channel of a silent block lies outside the current output sample. -/
theorem Silent.input_apart (h : Silent s) (hrun : s.run = true) {base n : Nat} (hbase : base ∈ s.ins)
    (hn : n < s.cfg.blockLen) : sampleAddr base n + 8 ≤ sampleAddr s.outs[s.cc] s.nn ∨
      sampleAddr s.outs[s.cc] s.nn + 8 ≤ sampleAddr base n := by
  obtain ⟨hnn, hbuf, -⟩ := h.input hrun
  have hboth : ∀ c : Chan, spansDisjoint s.cfg.blockLen base s.outs[c] = true := by
    obtain ⟨-, hins⟩ := (Bool.and_eq_true _ _).mp hbuf
    obtain ⟨hout0, hout1⟩ := (Bool.and_eq_true _ _).mp (List.all_eq_true.mp hins base hbase)
    exact Fin.forall_fin_two.mpr ⟨hout0, hout1⟩
  have hapart := hboth s.cc
  rw [spansDisjoint, Bool.or_eq_true, decide_eq_true_eq, decide_eq_true_eq] at hapart
  simp only [sampleAddr]
  omega

/-- A stored sample leaves the input as silent as it was. -/
theorem Silent.writeOut (h : Silent s) (v : NUM) : Silent (s.writeOut v) := by
  refine ⟨h.acc, h.filters, h.trackers, h.coefs, h.snap, h.amount, h.kShape, writeNum_wf h.mem _ _,
    fun hrun => ?_⟩
  obtain ⟨hnn, hbuf, hzero⟩ := h.input hrun
  refine ⟨hnn, hbuf, fun base hbase n hn => ?_⟩
  have hkeep := readNum_writeNum_other h.mem (sampleAddr s.outs[s.cc] s.nn) v (sampleAddr base n)
    (h.input_apart hrun hbase hn)
  exact (congrArg Fp.isZero hkeep).trans (hzero base hbase n hn)

/-- The end of a frame: the next is one of the same silent block, or there is none. -/
theorem Silent.endFrame (h : Silent s) : Silent s.endFrame := by
  obtain ⟨hlt, heq⟩ | ⟨-, -, heq⟩ | ⟨-, -, heq⟩ := endFrame_cases s <;> rw [heq] <;>
    refine ⟨h.acc, h.filters, h.trackers, h.coefs, h.snap, h.amount, h.kShape, h.mem, fun hrun => ?_⟩
  · obtain ⟨-, hbuf, hzero⟩ := h.input hrun
    exact ⟨hlt, hbuf, hzero⟩
  · obtain ⟨hnn, hbuf, hzero⟩ := h.input hrun
    exact ⟨Nat.zero_lt_of_lt hnn, hbuf, hzero⟩
  · exact absurd hrun Bool.false_ne_true

/-! ### The stages (R222) -/

theorem Silent.opLdin (h : Silent s) (hrun : s.run = true) : Silent (opLdin s) := by
  obtain ⟨hnn, -, hzero⟩ := h.input hrun
  unfold Machine.opLdin
  obtain ⟨hown, haddr⟩ | ⟨-, hfirst, haddr⟩ | ⟨-, haddr⟩ := inputAddr_cases s <;> rw [haddr]
  · exact h.setAcc (hzero _ (List.getElem_mem hown) _ hnn)
  · exact h.setAcc (hzero _ (List.getElem_mem hfirst) _ hnn)
  · exact h.setAcc rfl

theorem Silent.opOutg (h : Silent s) : Silent (opOutg s) := by
  obtain ⟨-, -, -, -, hgain, hvolume, htrim⟩ := finite_settings h.snap
  rw [opOutg_eq, outgResult]
  split
  · exact h.setAcc rfl
  · exact h.setAcc (Fp.isZero_mul_left (Fp.isZero_mul_left (Fp.isZero_mul_left h.acc hgain) hvolume) htrim)

theorem Silent.opBq (h : Silent s) (slot : Slot) : Silent (opBq slot s) := by
  have hfilter := h.filters s.cc slot
  have hout := isZero_biquadOut (h.coefs slot) hfilter h.acc
  have hset : Silent (s.setFilter slot (biquadShift s.chan.fs[slot] s.acc
      (biquadOut s.coef[slot] s.chan.fs[slot] s.acc))) :=
    h.setChan (h.filters_set slot (filterSilent_biquadShift hfilter h.acc hout)) (h.trackers s.cc)
  exact hset.setAcc hout

theorem Silent.opThick (h : Silent s)
    (hsin : Fp.finite (Config.sin s.cfg.fns s.chans[s.cc].th.phase) = true) : Silent (opThick s) := by
  obtain ⟨henv, hsub, hchug⟩ := h.trackers s.cc
  obtain ⟨henv', hsub', hphase⟩ := thickenStep_of_isZero henv hsub h.acc
  obtain ⟨-, -, hamount, -⟩ := finite_settings h.snap
  rw [← hphase] at hsin
  have hset : Silent (s.setThicken (thickenStep s.chan.th s.acc)) :=
    h.setChan (b := { s.chan with th := thickenStep s.chan.th s.acc }) (h.filters s.cc)
      ⟨henv', hsub', hchug⟩
  exact hset.setAcc (isZero_thickenMix hsin henv' hsub' hamount h.acc)

theorem Silent.opChug (h : Silent s) : Silent (opChug s) := by
  obtain ⟨henv, hsub, hchug⟩ := h.trackers s.cc
  obtain ⟨-, -, -, hamount, -⟩ := finite_settings h.snap
  have hchug' : Fp.isZero (chugStep s.chan.ch s.acc).env = true := isZero_follow hchug h.acc
  have hset : Silent (s.setChug (chugStep s.chan.ch s.acc)) :=
    h.setChan (b := { s.chan with ch := chugStep s.chan.ch s.acc }) (h.filters s.cc) ⟨henv, hsub, hchug'⟩
  exact hset.setAcc (isZero_chugOut hchug' hamount h.acc)

/-- Every stage operation keeps silence. -/
theorem IsStage.silent {i : Instr} {p : Pred} {op : State → State} (hi : IsStage i p op) (h : Silent s)
    (hrun : s.run = true) (hsin : ∀ p, i = .thick p →
      Fp.finite (Config.sin s.cfg.fns s.chans[s.cc].th.phase) = true) : Silent (op s) := by
  cases hi with
  | ldin => exact h.opLdin hrun
  | preg =>
    obtain ⟨hgain, htrim, -⟩ := finite_settings h.snap
    exact h.setAcc (Fp.isZero_mul_left (Fp.isZero_mul_left h.acc htrim) hgain)
  | shape => exact h.setAcc (isZero_shaper h.kShape h.acc h.amount)
  | thick => exact h.opThick (hsin p rfl)
  | chug => exact h.opChug
  | bq slot => exact h.opBq slot
  | trim => exact h.setAcc (Fp.isZero_mul_left h.acc rfl)
  | outg => exact h.opOutg
  | stout => exact h.writeOut s.acc

end

/-- Settles O60: a stage by its operation, END by the sequencer; what STOUT stores is the accumulator. -/
theorem silenceStaysSilent : Obligations.SilenceStaysSilent := by
  unfold Obligations.SilenceStaysSilent
  rintro i s (hstage | rfl) hrun h hsin
  · obtain ⟨p, hp⟩ := Option.isSome_iff_exists.mp hstage
    obtain ⟨op, hi⟩ := exists_isStage hp
    refine ⟨_, hi.exec s, ?_, fun q hq hholds => ?_⟩
    · obtain ⟨hholds, hs⟩ | ⟨-, hs⟩ := staged_cases p op s <;> rw [hs]
      · refine (hi.silent h hrun fun q hq => hsin q hq ?_).advance
        subst hq
        cases hi
        exact hholds
      · exact h.advance
    · subst hq
      cases hi
      rw [staged_of_holds hholds]
      exact (congrArg Fp.isZero (readNum_writeNum h.mem _ s.acc)).trans h.acc
  · exact ⟨_, exec_endPass s, h.endFrame, fun p hp => by cases hp⟩

end Machine

end Sys2Proof
end
